-- ==== Sys2Proof/Word.lean ====
section
/-! DEFINITION. The words of the EMSOR 2440 and the finite number ranges its rules use: station, page, tag, issue and
channel numbers (spec/00_scope.md section 2; R71, R73, R40). -/

namespace Sys2Proof

/-- One byte of a host transaction or of a line frame (R113, R171). -/
abbrev Byte := BitVec 8

/-- A word of the common space: 16 bits (spec/00_scope.md section 2.1). -/
abbrev Word := BitVec 16

/-- A station number, 0 to 31 (spec/00_scope.md section 2.3). -/
abbrev Station := Fin 32

/-- A page number, 0 to 63 (spec/00_scope.md section 2.2). -/
abbrev PageNo := Fin 64

/-- A request tag, 0 to 15 (R71). -/
abbrev Tag := Fin 16

/-- An issue number, 0 to 15; addition is modulo 16 (R73). -/
abbrev Issue := Fin 16

/-- A schedule channel number, 0 to 7 (R40). -/
abbrev ChannelNo := Fin 8

/-- A set of pages: bit `p` stands for page `p`. On the line and at the host port it is eight bytes, bit `i` of byte
`j` standing for page `8 * j + i` (Table 7.3, R182). -/
abbrev PageSet := BitVec 64

end Sys2Proof
end

