-- ==== Sys2Proof/Config.lean ====
section
/-! DEFINITION. The constants the spec fixes for every EMSOR 2440. The spec leaves no value to the implementation, so
nothing here is free (INVENTORY.md, "What the manual leaves open"). -/

namespace Sys2Proof.Config

/-- The quiet gap Q in bit times (R132, Table 8.1). -/
def quietGap : Nat := 12

/-- The slot width W in bit times (R132, Table 8.1). -/
def slotWidth : Nat := 8

/-- The rest that closes a broken frame, and that the receiver needs on entry to JOINING, in bit times (R112). -/
def restBits : Nat := 10

/-- The length of a jam in bit times (R122). -/
def jamBits : Nat := 16

/-- A dominant run longer than this is a jam to every receiver, in bit times (R117). -/
def longestDominant : Nat := 10

/-- REFCLK periods in one tick (R38). -/
def refclkPerTick : Nat := 2000

/-- Ticks in one millisecond unit, the prescale of a reply timer (R39, R83). -/
def ticksPerMs : Nat := 10

/-- Ticks in one age unit, the prescale of the age, silence and presence counters (R39, R63, R146, R166). -/
def ticksPerAge : Nat := 100

/-- Capacity of the reply queue (R96). -/
def replyQueueSize : Nat := 8

/-- Capacity of the write filter (R105). -/
def filterSize : Nat := 8

/-- Capacity of the notify queue (R187). -/
def notifyQueueSize : Nat := 16

/-- The abort that ends the station's attempts to send (R144). -/
def abortLimit : Nat := 8

/-- The longest body of a frame in bytes (R114, R119). -/
def longestBody : Nat := 134

/-- The greatest count of a host READ or WRITE and of a remote WRITE (R11, R103). -/
def longestAccess : Nat := 16

/-- Words in one page (R1). -/
def pageWords : Nat := 64

/-- What a word of page memory that nothing has written since hardware reset holds (R2). -/
def clearedWord : Word := 0

/-- The target byte of a frame for all stations (Table 7.2). -/
def toAll : Byte := 0xFF#8

/-- Owner byte of a SELF page at the host port (Table 10.3). -/
def ownerSelf : Byte := 0x40#8

/-- Owner byte of a NONE page at the host port (Table 10.3). -/
def ownerNone : Byte := 0x80#8

end Sys2Proof.Config
end

