-- ==== Sys2Proof/Syntax.lean ====
section
/-! DEFINITION. The commands of the block: one constructor of `Instr` for each row of spec/opcode_table.json. Host
commands carry the argument bytes of their transaction (Table 10.1); frames received from the line carry the fields of
Tables 7.2 and 7.3; timer rows carry the number of the timer. -/

namespace Sys2Proof

/-- The argument bytes of SET_PAGE after the page number, by owner byte (Table 10.3). -/
inductive PageArgs where
  /-- Owner byte 40h: policy, channel, remote writes, watch. -/
  | self (policy channel remoteWrites watch : Byte)
  /-- Owner byte 00h to 1Fh: read route, write route, age limit, watch. -/
  | peer (owner : Station) (readRoute writeRoute ageLimit watch : Byte)
  /-- Owner byte 80h: no further bytes. -/
  | none
  /-- Any other owner byte: reserved, no further bytes. -/
  | reserved (owner : Byte)
  deriving DecidableEq, Repr

/-- What makes a receiver find a frame broken (R117). The first three are met in a dominant bit. The other two are met after
recessive bits, and carry how many bit times in a row, up to the one they are met in, read recessive: the rest goes on from
there (R112, R118; notes/assumptions/19.md). -/
inductive Finding where
  | badStartPattern
  | badStopBit
  | jam
  | shortFrame (quiet : Nat)
  | crcError (quiet : Nat)
  deriving DecidableEq, Repr

/-- What the host clocks in between CSn going low and going high: whether RESETn was low when CSn fell or at some time before it
rose, and the whole bytes (R172; notes/assumptions/9.md). -/
structure Transaction where
  sawReset : Bool
  bytes    : List Byte
  deriving DecidableEq, Repr

/-- The commands: host transactions, resets, timer events and line events (spec/opcode_table.json, one row each). -/
inductive Instr where
  /-- SET_STATION (R175): own number, ring size, line-rate code, silence limit, reply timeout, retry limit. -/
  | setStation (own ring rate silence timeout retry : Byte)
  /-- SET_PAGE (R6, R176). -/
  | setPage (page : Byte) (args : PageArgs)
  /-- SET_CHANNEL (R41, R177): channel, kind, prescale, count less one. -/
  | setChannel (channel kind prescale countLess : Byte)
  /-- SET_MASK (R185): enables of the eight flags; the second byte's bit 0 is the NOTIFY enable. -/
  | setMask (flags second : Byte)
  /-- JOIN (R153). -/
  | join
  /-- LEAVE (R159). -/
  | leave
  /-- REJOIN (R158). -/
  | rejoin
  /-- SOFT_RESET (R162). -/
  | softReset
  /-- READ (R12, R178). -/
  | read (page offset count : Byte)
  /-- WRITE (R15, R178): the words follow the count byte. -/
  | write (page offset count : Byte) (words : List Word)
  /-- COLLECT (R86, R179). -/
  | collect (tag : Byte)
  /-- FLUSH (R26, R179). -/
  | flush (page : Byte)
  /-- STATUS (R180). -/
  | status
  /-- PEER (R164, R182). -/
  | peer (station : Byte)
  /-- PAGE_STATE (R8, R181). -/
  | pageState (page : Byte)
  /-- CHANNEL_STATE (R50, R182). -/
  | channelState (channel : Byte)
  /-- POP_NOTIFY (R188). -/
  | popNotify
  /-- CLEAR_EVENTS (R184). -/
  | clearEvents (named : Byte)
  /-- UNKNOWN_COMMAND (R173): a command byte that is no code of Table 10.1. -/
  | unknownCommand (code : Byte)
  /-- TRANSACTION_DISCARDED (R172): cut before its decision instant, or met by RESETn low. -/
  | transactionDiscarded (transaction : Transaction)
  /-- HARDWARE_RESET (R163): RESETn goes low, or power-on. -/
  | hardwareReset
  /-- RESET_RELEASE (R38, R163): RESETn goes high. -/
  | resetRelease
  /-- TICK (R38). -/
  | tick
  /-- GATHER_CHANNEL_EXPIRY (R46). -/
  | gatherChannelExpiry (channel : ChannelNo)
  /-- PERIOD_CHANNEL_EXPIRY (R47). -/
  | periodChannelExpiry (channel : ChannelNo)
  /-- REPLY_TIMER_EXPIRY (R84). -/
  | replyTimerExpiry (tag : Tag)
  /-- AGE_COUNTER_EXPIRY (R63). -/
  | ageCounterExpiry (page : PageNo)
  /-- SILENCE_COUNTER_EXPIRY (R166). -/
  | silenceCounterExpiry (station : Station)
  /-- PRESENCE_TIMER_EXPIRY (R146). -/
  | presenceTimerExpiry
  /-- ACTIVITY_START (R117). -/
  | activityStart
  /-- UPDATE_FRAME (R54, R55): the count field of the body is the number of words. -/
  | updateFrame (sender : Station) (page : PageNo) (version first : Byte) (words : List Word)
  /-- FETCH_FRAME (R99): a FETCH addressed to this station. -/
  | fetchFrame (sender : Station) (page offset count : Byte) (tag : Tag) (issue : Issue) (attempt : Byte)
  /-- WRITE_FRAME (R102): a WRITE addressed to this station; its count field is the number of words. -/
  | writeFrame (sender : Station) (page offset : Byte) (tag : Tag) (issue : Issue) (attempt : Byte) (words : List Word)
  /-- REPLY_FRAME (R79): a REPLY addressed to this station. -/
  | replyFrame (sender : Station) (tag : Tag) (issue : Issue) (attempt status page version count : Byte) (words : List Word)
  /-- ACK_FRAME (R81): an ACK addressed to this station. -/
  | ackFrame (sender : Station) (tag : Tag) (issue : Issue) (attempt status : Byte)
  /-- ANNOUNCE_FRAME (R168). -/
  | announceFrame (sender : Station) (joinFlag : Bool) (ring silence : Byte) (owned : PageSet)
  /-- PRESENCE_FRAME (R165). -/
  | presenceFrame (sender : Station)
  /-- LEAVE_FRAME (R167). -/
  | leaveFrame (sender : Station)
  /-- DUPLICATE_STATION_FRAME (R126): a good frame with the own number as sender that this station did not send. -/
  | duplicateStationFrame
  /-- MALFORMED_FRAME (R119): a good frame that fails a test; its sender byte may name no station. -/
  | malformedFrame (sender : Byte)
  /-- BROKEN_FRAME_END (R118). -/
  | brokenFrameEnd
  /-- RECOVERING_END (R117). -/
  | recoveringEnd
  /-- LISTEN_PERIOD_END (R135). -/
  | listenPeriodEnd
  /-- REPLY_WINDOW (R136). -/
  | replyWindow
  /-- ROTATION_SLOT (R137). -/
  | rotationSlot
  /-- READBACK_MISMATCH (R122). -/
  | readbackMismatch
  /-- ABORT (R122, R144): the jam ends and the abort is reported. -/
  | abort
  /-- COMPLETION (R124). -/
  | completion
  /-- REFRESH_CLAIM (R58). -/
  | refreshClaim
  /-- OTHER_TARGET_FRAME (R120): a good FETCH, WRITE, REPLY or ACK addressed to another station. -/
  | otherTargetFrame (sender : Station)
  /-- FRAME_FOUND_BROKEN (R117). -/
  | frameFoundBroken (finding : Finding)
  deriving DecidableEq, Repr

/-- The remote statuses of Table 7.4. -/
inductive RemoteStatus where
  | done
  | notOwner
  | disputed
  | refused
  | range
  deriving DecidableEq, Repr

/-- The body of a frame of each kind (Table 7.3). A count field that equals the number of words carried is not
written twice: UPDATE and WRITE always have `count = words.length` when they are not malformed (R119). -/
inductive FrameBody where
  | announce (joinFlag : Bool) (ring silence : Byte) (owned : PageSet)
  | presence
  | leave
  | update (page version first : Byte) (words : List Word)
  | fetch (page offset count : Byte) (tag : Tag) (issue : Issue) (attempt : Byte)
  | write (page offset : Byte) (tag : Tag) (issue : Issue) (attempt : Byte) (words : List Word)
  | reply (tag : Tag) (issue : Issue) (attempt status page version count : Byte) (words : List Word)
  | ack (tag : Tag) (issue : Issue) (attempt status : Byte)
  deriving DecidableEq, Repr

/-- A frame as the transmitter is given it: sender, target and body (R116). The body length is that of the body. -/
structure Frame where
  sender : Byte
  target : Byte
  body   : FrameBody
  deriving DecidableEq, Repr

end Sys2Proof
end

