-- ==== Sys2Proof/Decode.lean ====
section
/-! DEFINITION. From bits to commands and back. A host transaction is bytes clocked in on MOSI (R171 to R179); a frame is
bytes received from the line (R113 to R120). Both decoders are total: every sequence of bytes spells one row. After each
decoder stands its encoder. The table of commands gives no row any bits, so `decodeTableWord` reads none. -/

namespace Sys2Proof

/-! ### Bytes and words -/

/-- A number of at most 255 as one byte. -/
def byteOf (n : Nat) : Byte := BitVec.ofNat 8 n

/-- A word as two bytes, high byte first (R116, R171). -/
def wordBytes (w : Word) : List Byte := [w.extractLsb' 8 8, w.extractLsb' 0 8]

/-- Words one after another, each high byte first (R116, R171). -/
def wordsBytes : List Word → List Byte
  | [] => []
  | w :: ws => wordBytes w ++ wordsBytes ws

/-- Words read from bytes, high byte first; a last odd byte is no word. -/
def bytesWords : List Byte → List Word
  | hi :: lo :: rest => (hi ++ lo) :: bytesWords rest
  | _ => []

/-- A set of pages as eight bytes: bit `i` of byte `j` stands for page `8 * j + i` (Table 7.3, R182). -/
def pageSetBytes (s : PageSet) : List Byte :=
  [s.extractLsb' 0 8, s.extractLsb' 8 8, s.extractLsb' 16 8, s.extractLsb' 24 8,
   s.extractLsb' 32 8, s.extractLsb' 40 8, s.extractLsb' 48 8, s.extractLsb' 56 8]

/-- The set of pages that eight bytes spell. -/
def pageSetOf (b0 b1 b2 b3 b4 b5 b6 b7 : Byte) : PageSet :=
  b7 ++ b6 ++ b5 ++ b4 ++ b3 ++ b2 ++ b1 ++ b0

/-- The byte that carries tag and issue: tag in bits 7 to 4, issue in bits 3 to 0 (R116). -/
def tagIssueByte (t : Tag) (i : Issue) : Byte := byteOf (t.val * 16 + i.val)

/-- The tag in a tag-and-issue byte. -/
def tagOfByte (b : Byte) : Tag := ⟨b.toNat / 16, by have := b.isLt; omega⟩

/-- The issue in a tag-and-issue byte. -/
def issueOfByte (b : Byte) : Issue := ⟨b.toNat % 16, by omega⟩

/-! ### Host transactions -/

/-- How many words follow the count byte of a WRITE: none when the count is 0 or above 16 (R178). -/
def writeWordCount (count : Byte) : Nat :=
  if 1 ≤ count.toNat ∧ count.toNat ≤ Config.longestAccess then count.toNat else 0

/-- `n` words from the argument bytes of a WRITE, if all their bytes have come (R178). -/
def takeWords : Nat → List Byte → Option (List Word)
  | 0, _ => some []
  | n + 1, hi :: lo :: rest => (takeWords n rest).map fun ws => (hi ++ lo) :: ws
  | _ + 1, _ => none

/-- The arguments of SET_PAGE after the page number, if all have come; the owner byte gives their number (R176). -/
def decodePageArgs (owner : Byte) (fields : List Byte) : Option PageArgs :=
  if owner = Config.ownerSelf then
    match fields with
    | a :: b :: c :: d :: _ => some (.self a b c d)
    | _ => none
  else if h : owner.toNat < 32 then
    match fields with
    | a :: b :: c :: d :: _ => some (.peer ⟨owner.toNat, h⟩ a b c d)
    | _ => none
  else if owner = Config.ownerNone then some .none
  else some (.reserved owner)

/-- The command that a command byte and its argument bytes spell, or none while argument bytes are missing (Table 10.1).
Bytes after the last argument byte are ignored (R171). -/
def decodeCommand (code : Byte) (args : List Byte) : Option Instr :=
  if code = 0x01#8 then
    match args with
    | a :: b :: c :: d :: e :: f :: _ => some (.setStation a b c d e f)
    | _ => none
  else if code = 0x02#8 then
    match args with
    | page :: owner :: fields => (decodePageArgs owner fields).map fun a => .setPage page a
    | _ => none
  else if code = 0x03#8 then
    match args with
    | a :: b :: c :: d :: _ => some (.setChannel a b c d)
    | _ => none
  else if code = 0x04#8 then
    match args with
    | a :: b :: _ => some (.setMask a b)
    | _ => none
  else if code = 0x08#8 then some .join
  else if code = 0x09#8 then some .leave
  else if code = 0x0A#8 then some .rejoin
  else if code = 0x0F#8 then some .softReset
  else if code = 0x10#8 then
    match args with
    | a :: b :: c :: _ => some (.read a b c)
    | _ => none
  else if code = 0x11#8 then
    match args with
    | a :: b :: c :: rest => (takeWords (writeWordCount c) rest).map fun ws => .write a b c ws
    | _ => none
  else if code = 0x12#8 then args.head?.map .collect
  else if code = 0x13#8 then args.head?.map .flush
  else if code = 0x20#8 then some .status
  else if code = 0x21#8 then args.head?.map .peer
  else if code = 0x22#8 then args.head?.map .pageState
  else if code = 0x23#8 then args.head?.map .channelState
  else if code = 0x24#8 then some .popNotify
  else if code = 0x25#8 then args.head?.map .clearEvents
  else some (.unknownCommand code)

/-- The row that a transaction spells when CSn rises: the command, if its decision instant was reached, and
TRANSACTION_DISCARDED otherwise. With RESETn low when CSn fell, or at some time before it rose, the transaction is not taken
whatever its bytes (R172). -/
def decodeTransaction (t : Transaction) : Instr :=
  if t.sawReset then .transactionDiscarded t
  else
    match t.bytes with
    | [] => .transactionDiscarded t
    | code :: args => (decodeCommand code args).getD (.transactionDiscarded t)

/-- The bytes of SET_PAGE after the page number (Table 10.3). -/
def encodePageArgs : PageArgs → List Byte
  | .self a b c d => [Config.ownerSelf, a, b, c, d]
  | .peer owner a b c d => [byteOf owner.val, a, b, c, d]
  | .none => [Config.ownerNone]
  | .reserved owner => [owner]

/-- The bytes the host clocks in to the decision instant of a host command (Table 10.1); none for a row of another kind. -/
def encodeCommand : Instr → Option (List Byte)
  | .setStation a b c d e f => some [0x01#8, a, b, c, d, e, f]
  | .setPage page args => some (0x02#8 :: page :: encodePageArgs args)
  | .setChannel a b c d => some [0x03#8, a, b, c, d]
  | .setMask a b => some [0x04#8, a, b]
  | .join => some [0x08#8]
  | .leave => some [0x09#8]
  | .rejoin => some [0x0A#8]
  | .softReset => some [0x0F#8]
  | .read a b c => some [0x10#8, a, b, c]
  | .write a b c ws => some (0x11#8 :: a :: b :: c :: wordsBytes ws)
  | .collect t => some [0x12#8, t]
  | .flush p => some [0x13#8, p]
  | .status => some [0x20#8]
  | .peer n => some [0x21#8, n]
  | .pageState p => some [0x22#8, p]
  | .channelState c => some [0x23#8, c]
  | .popNotify => some [0x24#8]
  | .clearEvents e => some [0x25#8, e]
  | .unknownCommand code => some [code]
  | _ => none

/-- The transaction that a host command, or a discarded transaction, comes from; none for a row of another kind. -/
def encodeTransaction : Instr → Option Transaction
  | .transactionDiscarded t => some t
  | c => (encodeCommand c).map fun bytes => { sawReset := false, bytes := bytes }

/-- A byte of a host transaction as it is shifted: most significant bit first (R171). -/
def spiBits (b : Byte) : List Bool :=
  [b.getLsbD 7, b.getLsbD 6, b.getLsbD 5, b.getLsbD 4, b.getLsbD 3, b.getLsbD 2, b.getLsbD 1, b.getLsbD 0]

/-- What MISO carries while byte `n` is clocked (R171). With CSn high it is high-impedance and carries none. In a transaction
whose command is decided at the end of its byte `decided`: 00h before, then the status byte and the result bytes, and 00h for
as long as the host goes on clocking. In one that reaches no decision instant: 00h. -/
def misoByte (csnHigh : Bool) (decided : Option Nat) (response : List Byte) (n : Nat) : Option Byte :=
  if csnHigh then none
  else
    match decided with
    | some d => some (if n < d then 0 else response.getD (n - d) 0)
    | none => some 0

/-! ### The CRC -/

/-- One data bit into the CRC register (R115). -/
def crcBit (reg : BitVec 16) (bit : Bool) : BitVec 16 :=
  if reg.getLsbD 15 != bit then (reg <<< 1) ^^^ 0x1021#16 else reg <<< 1

/-- The data bits of a byte in the order they are sent: bit 0 first (R113). -/
def byteBits (b : Byte) : List Bool :=
  [b.getLsbD 0, b.getLsbD 1, b.getLsbD 2, b.getLsbD 3, b.getLsbD 4, b.getLsbD 5, b.getLsbD 6, b.getLsbD 7]

/-- The CRC of header and body bytes: register FFFFh at the start, not inverted at the end (R115). -/
def crcOf (bytes : List Byte) : BitVec 16 :=
  bytes.foldl (fun reg b => (byteBits b).foldl crcBit reg) 0xFFFF#16

/-! ### Frames -/

/-- The length Table 7.3 gives the body of a kind, where the count and status fields are those of the body as received
(R119 test 6); none where the kind code names no kind or the body lacks the field its length depends on. -/
def bodyLength (kind : Nat) (body : List Byte) : Option Nat :=
  match kind with
  | 1 => some 10
  | 2 => some 0
  | 3 => some 0
  | 4 => body[3]?.map fun c => 4 + 2 * c.toNat
  | 5 => some 5
  | 6 => body[2]?.map fun c => 5 + 2 * c.toNat
  | 7 =>
    match body[2]?, body[5]? with
    | some status, some c => some (if status = 0 then 6 + 2 * c.toNat else 6)
    | _, _ => none
  | 8 => some 3
  | _ => none

/-- Whether a kind is addressed to all stations (Table 7.3). -/
def kindToAll (kind : Nat) : Bool := kind = 1 || kind = 2 || kind = 3 || kind = 4

/-- The tests of R119 in their order, on header byte 0, sender, target and body. -/
def malformed (h0 sender target : Byte) (body : List Byte) : Bool :=
  let kind := h0.toNat % 16
  if Config.longestBody < body.length then true
  else if kind = 0 || 9 ≤ kind || 32 ≤ h0.toNat then true
  else if h0.getLsbD 4 && kind != 1 then true
  else if 31 < sender.toNat then true
  else if (if kindToAll kind then target != Config.toAll else 31 < target.toNat) then true
  else if bodyLength kind body != some body.length then true
  else if kind = 4 && ((body.getD 3 0).toNat = 0 || 63 < (body.getD 0 0).toNat) then true
  else false

/-- The body fields of a frame that is not malformed, read by its kind (Table 7.3). -/
def parseBody (h0 : Byte) (body : List Byte) : Option FrameBody :=
  match h0.toNat % 16, body with
  | 1, [ring, silence, b0, b1, b2, b3, b4, b5, b6, b7] =>
    some (.announce (h0.getLsbD 4) ring silence (pageSetOf b0 b1 b2 b3 b4 b5 b6 b7))
  | 2, [] => some .presence
  | 3, [] => some .leave
  | 4, page :: version :: first :: _ :: ws => some (.update page version first (bytesWords ws))
  | 5, [page, offset, count, ti, attempt] => some (.fetch page offset count (tagOfByte ti) (issueOfByte ti) attempt)
  | 6, page :: offset :: _ :: ti :: attempt :: ws =>
    some (.write page offset (tagOfByte ti) (issueOfByte ti) attempt (bytesWords ws))
  | 7, ti :: attempt :: status :: page :: version :: count :: ws =>
    some (.reply (tagOfByte ti) (issueOfByte ti) attempt status page version count (bytesWords ws))
  | 8, [ti, attempt, status] => some (.ack (tagOfByte ti) (issueOfByte ti) attempt status)
  | _, _ => none

/-- The row a frame of known sender and body is for station `own` (R120). -/
def bodyRow (own sender : Station) (target : Byte) : FrameBody → Instr
  | .announce j ring silence owned => .announceFrame sender j ring silence owned
  | .presence => .presenceFrame sender
  | .leave => .leaveFrame sender
  | .update page version first ws =>
    if h : page.toNat < 64 then .updateFrame sender ⟨page.toNat, h⟩ version first ws
    else .malformedFrame (byteOf sender.val)
  | .fetch page offset count t i a =>
    if target = byteOf own.val then .fetchFrame sender page offset count t i a else .otherTargetFrame sender
  | .write page offset t i a ws =>
    if target = byteOf own.val then .writeFrame sender page offset t i a ws else .otherTargetFrame sender
  | .reply t i a status page version count ws =>
    if target = byteOf own.val then .replyFrame sender t i a status page version count ws else .otherTargetFrame sender
  | .ack t i a status =>
    if target = byteOf own.val then .ackFrame sender t i a status else .otherTargetFrame sender

/-- The row that a good frame of another transmitter is for station `own`: a duplicate-station frame (R126), a malformed
frame (R119), or the row of its kind (R120). -/
def classify (own : Station) (h0 sender target : Byte) (body : List Byte) : Instr :=
  if sender = byteOf own.val then .duplicateStationFrame
  else if malformed h0 sender target body then .malformedFrame sender
  else if h : sender.toNat < 32 then
    match parseBody h0 body with
    | some b => bodyRow own ⟨sender.toNat, h⟩ target b
    | none => .malformedFrame sender
  else .malformedFrame sender

/-- A byte frame of 10 bit times: start bit dominant, eight data bits, stop bit recessive (R113). `true` is the
recessive level. -/
def byteFrame (b : Byte) : List Bool := false :: byteBits b ++ [true]

/-- The byte frames of bytes, one after another with no gap (R113). -/
def byteFrames : List Byte → List Bool
  | [] => []
  | b :: bs => byteFrame b ++ byteFrames bs

/-- The levels of a frame of these bytes, bit time by bit time: start pattern, then byte frames (R114). -/
def frameLevels (bytes : List Byte) : List Bool := false :: true :: byteFrames bytes

/-- The level at bit time `i` of a frame, as sampled at the middle of the bit (R112); past the levels given the line is
recessive. -/
def levelAt (levels : List Bool) (i : Nat) : Bool := levels.getD i true

/-- How many of the first `n` bit times, counted back from the last of them, read recessive with no dominant one between: the
bit times since the last recessive-going transition (R112, R118). -/
def quietAt (levels : List Bool) : Nat → Nat
  | 0 => 0
  | n + 1 => if levelAt levels n then quietAt levels n + 1 else 0

/-- The same at the end of the last stop bit of a frame of these bytes. -/
def quietAfter (bytes : List Byte) : Nat := quietAt (frameLevels bytes) (2 + 10 * bytes.length)

/-- How many bit times in a row read recessive at a finding: none where it is met in a dominant bit (R117). -/
def Finding.quiet : Finding → Nat
  | .badStartPattern => 0
  | .badStopBit => 0
  | .jam => 0
  | .shortFrame quiet => quiet
  | .crcError quiet => quiet

/-- The row that the bytes of a received frame spell for station `own`: header, body of the length in header byte 3, CRC.
Missing bytes make a short frame, found in the start bit that is due and recessive; a CRC that differs a CRC error, found in
the last stop bit (R115, R117). -/
def decodeLine (own : Station) : List Byte → Instr
  | h0 :: sender :: target :: len :: rest =>
    let body := rest.take len.toNat
    match rest.drop len.toNat with
    | hi :: lo :: _ =>
      if hi ++ lo = crcOf (h0 :: sender :: target :: len :: body) then classify own h0 sender target body
      else .frameFoundBroken (.crcError (quietAfter (h0 :: sender :: target :: len :: body ++ [hi, lo])))
    | _ => .frameFoundBroken (.shortFrame (quietAfter (h0 :: sender :: target :: len :: rest) + 1))
  | short => .frameFoundBroken (.shortFrame (quietAfter short + 1))

/-- The kind code of a frame (Table 7.3). -/
def FrameBody.kindCode : FrameBody → Byte
  | .announce _ _ _ _ => 1
  | .presence => 2
  | .leave => 3
  | .update _ _ _ _ => 4
  | .fetch _ _ _ _ _ _ => 5
  | .write _ _ _ _ _ _ => 6
  | .reply _ _ _ _ _ _ _ _ => 7
  | .ack _ _ _ _ => 8

/-- Whether the JOIN flag is set (Table 7.2). -/
def FrameBody.joinFlag : FrameBody → Bool
  | .announce j _ _ _ => j
  | _ => false

/-- The body of a frame, byte by byte (Table 7.3). -/
def FrameBody.bytes : FrameBody → List Byte
  | .announce _ ring silence owned => ring :: silence :: pageSetBytes owned
  | .presence => []
  | .leave => []
  | .update page version first ws => page :: version :: first :: byteOf ws.length :: wordsBytes ws
  | .fetch page offset count t i a => [page, offset, count, tagIssueByte t i, a]
  | .write page offset t i a ws => page :: offset :: byteOf ws.length :: tagIssueByte t i :: a :: wordsBytes ws
  | .reply t i a status page version count ws =>
    tagIssueByte t i :: a :: status :: page :: version :: count :: wordsBytes ws
  | .ack t i a status => [tagIssueByte t i, a, status]

/-- Header byte 0: the kind code, with the JOIN flag in bit 4 (Table 7.2). -/
def FrameBody.headerByte (b : FrameBody) : Byte := if b.joinFlag then b.kindCode ||| 0x10#8 else b.kindCode

/-- Header and body of a frame as built (R116, R142). -/
def Frame.bytes (f : Frame) : List Byte :=
  f.body.headerByte :: f.sender :: f.target :: byteOf f.body.bytes.length :: f.body.bytes

/-- Header, body and CRC, high byte first (R114, R115). -/
def Frame.wire (f : Frame) : List Byte := f.bytes ++ wordBytes (crcOf f.bytes)

/-- The levels of a whole frame, bit time by bit time (R114). -/
def Frame.lineBits (f : Frame) : List Bool := frameLevels f.wire

/-- The eight data bits of byte frame `i` as a byte: bit 0 first, 1 recessive (R113). -/
def dataByte (levels : List Bool) (i : Nat) : Byte :=
  (List.range 8).foldl (fun b j => if levelAt levels (3 + 10 * i + j) then b ||| BitVec.twoPow 8 j else b) 0

/-- What the receiver finds in byte frame `i`: a start bit that is due and recessive, or a stop bit that is dominant (R117). -/
def byteFinding (levels : List Bool) (i : Nat) : Option Finding :=
  if levelAt levels (2 + 10 * i) then some (.shortFrame (quietAt levels (3 + 10 * i)))
  else if levelAt levels (11 + 10 * i) then none
  else some .badStopBit

/-- The row that the sampled levels of a frame are for station `own`, from the dominant bit that begins it: broken at the first
finding met, else read as 6 + L bytes, L from header byte 3 as received (R117). No run of more than 10 dominant bits comes
before a stop bit or second start-pattern bit that is dominant, so a jam is met as one of these (notes/assumptions/29.md). -/
def receiveLine (own : Station) (levels : List Bool) : Instr :=
  if levelAt levels 1 = false then .frameFoundBroken .badStartPattern
  else
    let due := 6 + (dataByte levels 3).toNat
    match (List.range due).findSome? (byteFinding levels) with
    | some finding => .frameFoundBroken finding
    | none => decodeLine own ((List.range due).map (dataByte levels))

/-- The duration of a frame in bit times (R114). -/
def Frame.duration (f : Frame) : Nat := 2 + 10 * (6 + f.body.bytes.length)

/-! ### The table's words -/

/-- The command a word spells by the bits of spec/opcode_table.json. The table gives no row any bits, so no word spells a
command (notes/assumptions/20.md). -/
def decodeTableWord (_nbits _w : Nat) : Option Instr := none

end Sys2Proof
end

