-- ==== Sys2Proof/Machine/State.lean ====
section
/-! DEFINITION. The state of one EMSOR 2440 station as plain data, unit by unit (Table 1-1), the reasons a step can stop,
and the state right after hardware reset (R163). -/

namespace Sys2Proof.Machine

/-- Reasons a step could stop with a fault: there is none. The spec gives the block no fault, and every row has an effect
in every state, so the type has no constructor and no step can answer one. Safe. -/
inductive Fault where
  deriving DecidableEq, Repr

/-- Reasons a command could be refused. -/
inductive Refusal where
  /-- A row that has no meaning yet. No arm of `exec` answers it: every row is modelled. Safe. -/
  | notModelled (mnemonic : String)
  deriving DecidableEq, Repr

/-! ### Station record and lifecycle -/

/-- The station states (R150, Table 9.1). -/
inductive StationState where
  | setup
  | joining
  | active
  | muted
  | leaving
  deriving DecidableEq, Repr

/-- The last configuration error (R150). -/
inductive ConfigError where
  | none
  | badStation
  | badOwner
  | badChannel
  | ringMismatch
  deriving DecidableEq, Repr

/-- The MUTED reason (R150). -/
inductive MutedReason where
  | none
  | aborts
  | duplicateStation
  deriving DecidableEq, Repr

/-- The line rates (R111). -/
inductive LineRate where
  | mbit1
  | mbit2_5
  | mbit5
  | mbit10
  deriving DecidableEq, Repr

/-- The station record (R151, R111, R74). -/
structure StationRecord where
  /-- Own number, 0 to 31. -/
  own          : Station
  /-- Ring size N, 2 to 32. -/
  ring         : Nat
  rate         : LineRate
  /-- Silence limit, 2 to 255 age units. -/
  silence      : Nat
  /-- Reply timeout, 1 to 255 millisecond units. -/
  replyTimeout : Nat
  /-- Retry limit, 0 to 7. -/
  retryLimit   : Nat
  deriving DecidableEq, Repr

/-! ### Tick-counted timers -/

/-- The counts of a running tick-counted timer (R42): a prescaler count and a main count. `due` is the model's own
mark: the tick that ends the count has come, and the expiry waits to be taken (notes/assumptions/4.md). -/
structure Counter where
  pre  : Nat
  main : Nat
  due  : Bool
  deriving DecidableEq, Repr

/-- The kinds of schedule channel (R40). -/
inductive ChannelKind where
  | gatherOnce
  | gatherQuiet
  | period
  deriving DecidableEq, Repr

/-- A schedule channel (R40). It is IDLE exactly when it has no current counts. -/
structure Channel where
  kind     : ChannelKind
  /-- 1 to 64. -/
  prescale : Nat
  /-- 1 to 256. -/
  count    : Nat
  /-- `none` while IDLE; the current counts while COUNTING. -/
  run      : Option Counter
  deriving DecidableEq, Repr

/-! ### The page map -/

/-- The policy of a SELF page, with its channel where the policy has one (R4). -/
inductive Policy where
  | onWrite
  | gather (channel : ChannelNo)
  | period (channel : ChannelNo)
  | quiet
  deriving DecidableEq, Repr

/-- Whether peers may write an owned page (R4). -/
inductive RemoteWrites where
  | accept
  | refuse
  deriving DecidableEq, Repr

/-- The write route of a peer page (R5). -/
inductive WriteRoute where
  | send
  | deny
  deriving DecidableEq, Repr

/-- The SELF variant of a page descriptor (R4). -/
structure OwnDesc where
  policy       : Policy
  remoteWrites : RemoteWrites
  watch        : Bool
  deriving DecidableEq, Repr

/-- The peer variant with read route MIRROR (R5). -/
structure MirrorDesc where
  owner      : Station
  writeRoute : WriteRoute
  /-- Age limit: 0, or 1 to 255 age units. -/
  ageLimit   : Nat
  watch      : Bool
  deriving DecidableEq, Repr

/-- The peer variant with read route FETCH (R5); its watch field has no effect. -/
structure FetchDesc where
  owner      : Station
  writeRoute : WriteRoute
  watch      : Bool
  deriving DecidableEq, Repr

/-- A dirty span low..high of offsets, both ends included (R20). -/
structure Span where
  low  : Nat
  high : Nat
  deriving DecidableEq, Repr

/-- The extent of a publication (R23). -/
inductive Extent where
  | span
  | full
  deriving DecidableEq, Repr

/-- The run-state of an owned page (Table 1.1). Its queued mark is kept by the publish queue (R23). -/
structure OwnRun where
  version : Byte
  span    : Option Span
  deriving DecidableEq, Repr

/-- The mirror states (Table 4.1). -/
inductive MirrorState where
  | empty
  | fresh
  | gapped
  | stale
  deriving DecidableEq, Repr

/-- The refresh marks (R57). -/
inductive RefreshMark where
  | none
  | wanted
  | pending
  deriving DecidableEq, Repr

/-- The mirror record of a mirrored page (R51). -/
structure MirrorRun where
  state : MirrorState
  /-- Last version; absent exactly while EMPTY. -/
  last  : Option Byte
  /-- Age counter: `none` while stopped; tick count and unit count while counting (R63). -/
  age   : Option Counter
  mark  : RefreshMark
  deriving DecidableEq, Repr

/-- A page's descriptor together with the run-state its variant has (R3, R8). -/
inductive PageVariant where
  | none
  | own (d : OwnDesc) (r : OwnRun)
  | mirror (d : MirrorDesc) (r : MirrorRun)
  | fetch (d : FetchDesc)
  deriving DecidableEq, Repr

/-- One page of the page map: descriptor with run-state, and the DISPUTED flag (R3, R9). -/
structure Page where
  variant  : PageVariant
  disputed : Bool
  deriving DecidableEq, Repr

/-! ### The request unit -/

/-- The local reasons of a FAILED entry (R71). -/
inductive LocalReason where
  | timeout
  | ownerLost
  | muted
  | cancelled
  deriving DecidableEq, Repr

/-- The kinds of request (R71); a WRITE keeps its words. -/
inductive RequestKind where
  | read
  | write (words : List Word)
  | refresh
  deriving DecidableEq, Repr

/-- The state of an entry that is not FREE, with the fields that state has (R71). -/
inductive Phase where
  | queued (framed : Bool)
  /-- SENT, with its reply timer (R83). -/
  | sent (timer : Counter)
  /-- DONE, with the remote status and, for a READ answered DONE, the owner's version and the words. -/
  | done (status : RemoteStatus) (data : Option (Byte × List Word))
  | failed (reason : LocalReason)
  deriving DecidableEq, Repr

/-- A request entry that is not FREE (R71). -/
structure Request where
  kind    : RequestKind
  owner   : Station
  page    : PageNo
  offset  : Nat
  count   : Nat
  issue   : Issue
  /-- 0 to 7. -/
  attempt : Nat
  phase   : Phase
  deriving DecidableEq, Repr

/-! ### The service unit -/

/-- An answer owed to a peer (R96). -/
inductive ReplyEntry where
  | reply (requester : Station) (tag : Tag) (issue : Issue) (attempt page offset count : Byte)
  | ack (requester : Station) (tag : Tag) (issue : Issue) (attempt : Byte) (status : RemoteStatus)
  deriving DecidableEq, Repr

/-- A record of the write filter (R105). -/
structure FilterRecord where
  writer : Station
  tag    : Tag
  issue  : Issue
  status : RemoteStatus
  deriving DecidableEq, Repr

/-! ### The peer table -/

/-- The state of a peer record; a silence counter counts only while PRESENT (R164). -/
inductive PeerState where
  | absent
  | present (silence : Counter)
  | silent
  deriving DecidableEq, Repr

/-- A peer record (R164). The announced silence limit is recorded with the owned set. -/
structure PeerRecord where
  state     : PeerState
  announced : Option (PageSet × Byte)
  deriving DecidableEq, Repr

/-! ### Line interface and access controller -/

/-- The transmitter (R122). The numbers count bit times: the bit of the frame being driven, and the jam bits begun (0 in
the rest of the mismatched bit; the jam drives from the start of the next bit). -/
inductive Transmitter where
  | idle
  | sending (bit : Nat)
  | jamming (bit : Nat)
  deriving DecidableEq, Repr

/-- Why the receiver waits for rest (R117). `rejoined` is the model's own mark: the entry to JOINING was a REJOIN, and no bit time
has come since, so a duplicate-station frame that ends at about the same time can still be found (R158;
notes/assumptions/33.md). -/
inductive RecoveryCause where
  | brokenFrame
  | joining
  | rejoined
  deriving DecidableEq, Repr

/-- The receiver (R117). RECOVERING holds the bit times of rest counted so far. -/
inductive Receiver where
  | resting
  | receiving
  | recovering (cause : RecoveryCause) (rest : Nat)
  deriving DecidableEq, Repr

/-- The origin of the frame in the transmit buffer (R142). -/
inductive Origin where
  | joinAnnounce
  | responseAnnounce
  | leave
  | presence
  | answer
  | request (tag : Tag)
  | update (page : PageNo)
  deriving DecidableEq, Repr

/-- The frame in the transmit buffer, with its drive state (HELD or DRIVEN) and its discard mark (R142). -/
structure TxFrame where
  origin  : Origin
  frame   : Frame
  driven  : Bool
  discard : Bool
  deriving DecidableEq, Repr

/-- The six line and traffic counters (R129). -/
structure LineCounters where
  broken      : BitVec 16
  malformed   : BitVec 16
  oldUpdates  : BitVec 16
  lateReplies : BitVec 16
  overruns    : BitVec 16
  notifyLost  : BitVec 16
  deriving DecidableEq, Repr

/-! ### The whole state -/

/-- The state of the station. `pending`, `response`, the `due` marks and the cause `rejoined` are the model's own; every other
field is a piece of state that a rule of the spec names (INVENTORY.md, "State"). -/
structure State where
  /-- Commands that wait, first in, first out (the model's own). -/
  pending        : List Instr
  /-- RESETn is low (R163). -/
  resetHeld      : Bool
  /-- REFCLK periods counted towards the next tick (R38). -/
  refclk         : Nat
  /-- The station state (R150). -/
  station        : StationState
  /-- The last configuration error (R150). -/
  configError    : ConfigError
  /-- The MUTED reason (R150). -/
  mutedReason    : MutedReason
  /-- The station record (R151). -/
  record         : StationRecord
  /-- The 64 pages of the page map (R3, R8). -/
  pages          : Vector Page 64
  /-- Page memory: (linear address, word) pairs, addresses strictly rising, no cleared word listed (R1). -/
  memory         : List (Nat × Word)
  /-- The publish queue, head first, with the extent of each page's queued mark (R23). -/
  publishQueue   : List (PageNo × Extent)
  /-- The schedule channels (R40). -/
  channels       : Vector Channel 8
  /-- The request table; `none` is FREE (R71). -/
  table          : Vector (Option Request) 16
  /-- The issue counter of each tag (R73). -/
  issues         : Vector Issue 16
  /-- The send order, head first (R76). -/
  sendOrder      : List Tag
  /-- The reply queue, head first (R96). -/
  replyQueue     : List ReplyEntry
  /-- The write filter, oldest first (R105). -/
  filter         : List FilterRecord
  /-- The peer table (R164). -/
  peers          : Vector PeerRecord 32
  /-- The transmitter (R122). -/
  transmitter    : Transmitter
  /-- The receiver (R117). -/
  receiver       : Receiver
  /-- The line and traffic counters (R129). -/
  counters       : LineCounters
  /-- The last-sender view; `none` is UNKNOWN (R130). -/
  view           : Option Station
  /-- The access timer; `none` is STOPPED (R132). -/
  accessTimer    : Option Nat
  /-- The listen count; `none` when no listen period runs (R135). -/
  listen         : Option Nat
  /-- A reply window has been opened and has not yet begun (R136). -/
  windowOpen     : Bool
  /-- The transmit buffer (R142). -/
  buffer         : Option TxFrame
  /-- The consecutive-abort count (R144). -/
  abortCount     : Nat
  /-- The presence timer; `none` is STOPPED (R146). -/
  presenceTimer  : Option Counter
  /-- The PRESENCE mark (R147). -/
  presenceMark   : Bool
  /-- The response-ANNOUNCE mark (R139). -/
  responseMark   : Bool
  /-- The event flags, one bit each as Table 10.5 numbers them (R183). -/
  flags          : Byte
  /-- The enables of the eight flags (R185). -/
  mask           : Byte
  /-- The NOTIFY enable (R185). -/
  notifyEnable   : Bool
  /-- The notify queue, oldest first (R187). -/
  notify         : List PageNo
  /-- The status byte and result bytes that the last command decided shifts out on MISO (R171; the model's own). -/
  response       : List Byte
  deriving DecidableEq, Repr

/-- The station record after hardware reset (R151, R111, R74). -/
def StationRecord.reset : StationRecord :=
  { own := 0, ring := 2, rate := .mbit1, silence := 10, replyTimeout := 20, retryLimit := 3 }

/-- A channel record after hardware reset (R40). -/
def Channel.reset : Channel :=
  { kind := .gatherOnce, prescale := 1, count := 1, run := none }

/-- The machine right after hardware reset, with RESETn high again: in SETUP, every page NONE, page memory cleared, every
table and queue empty (R163 and the rules INVENTORY.md lists beside each field). -/
def State.reset : State where
  pending := []
  resetHeld := false
  refclk := 0
  station := .setup
  configError := .none
  mutedReason := .none
  record := StationRecord.reset
  pages := Vector.replicate 64 { variant := .none, disputed := false }
  memory := []
  publishQueue := []
  channels := Vector.replicate 8 Channel.reset
  table := Vector.replicate 16 none
  issues := Vector.replicate 16 0
  sendOrder := []
  replyQueue := []
  filter := []
  peers := Vector.replicate 32 { state := .absent, announced := none }
  transmitter := .idle
  receiver := .resting
  counters := { broken := 0, malformed := 0, oldUpdates := 0, lateReplies := 0, overruns := 0, notifyLost := 0 }
  view := none
  accessTimer := none
  listen := none
  windowOpen := false
  buffer := none
  abortCount := 0
  presenceTimer := none
  presenceMark := false
  responseMark := false
  flags := 0
  mask := 0
  notifyEnable := false
  notify := []
  response := []

end Sys2Proof.Machine
end

