-- ==== Sys2Proof/Machine/Operands.lean ====
section
/-! DEFINITION. The operand forms of the host commands: what the argument bytes of Tables 10.1 and 10.3 stand for, which
values are out of range (R174 step 3), and the codes of Tables 7.4, 10.2 and 10.4 in which results are reported. -/

namespace Sys2Proof.Machine

/-! ### Arguments -/

/-- A page number, 0 to 63. -/
def pageOf (b : Byte) : Option PageNo :=
  if h : b.toNat < 64 then some ⟨b.toNat, h⟩ else none

/-- A channel number, 0 to 7. -/
def channelOf (b : Byte) : Option ChannelNo :=
  if h : b.toNat < 8 then some ⟨b.toNat, h⟩ else none

/-- A tag, 0 to 15. -/
def tagOf (b : Byte) : Option Tag :=
  if h : b.toNat < 16 then some ⟨b.toNat, h⟩ else none

/-- A station number, 0 to 31. -/
def stationOf (b : Byte) : Option Station :=
  if h : b.toNat < 32 then some ⟨b.toNat, h⟩ else none

/-- The line-rate codes (R175). -/
def rateOf (b : Byte) : Option LineRate :=
  if b = 0 then some .mbit1
  else if b = 1 then some .mbit2_5
  else if b = 2 then some .mbit5
  else if b = 3 then some .mbit10
  else none

/-- The six arguments of SET_STATION as a station record, or out of range (R175). -/
def stationRecordOf (own ring rate silence timeout retry : Byte) : Option StationRecord :=
  match stationOf own, rateOf rate with
  | some o, some r =>
    if ring.toNat < 2 ∨ 32 < ring.toNat ∨ silence.toNat < 2 ∨ timeout.toNat = 0 ∨ 7 < retry.toNat then none
    else some { own := o, ring := ring.toNat, rate := r, silence := silence.toNat, replyTimeout := timeout.toNat,
                retryLimit := retry.toNat }
  | _, _ => none

/-- A yes-or-no byte: 0 no, 1 yes (Table 10.3). -/
def yesNoOf (b : Byte) : Option Bool :=
  if b = 0 then some false else if b = 1 then some true else none

/-- The policy byte with the channel byte, which is examined for GATHER and PERIOD alone (R176). -/
def policyOf (policy channel : Byte) : Option Policy :=
  if policy = 0 then some .onWrite
  else if policy = 1 then (channelOf channel).map .gather
  else if policy = 2 then (channelOf channel).map .period
  else if policy = 3 then some .quiet
  else none

/-- The remote-writes byte (Table 10.3). -/
def remoteWritesOf (b : Byte) : Option RemoteWrites :=
  if b = 0 then some .accept else if b = 1 then some .refuse else none

/-- The write-route byte (Table 10.3). -/
def writeRouteOf (b : Byte) : Option WriteRoute :=
  if b = 0 then some .send else if b = 1 then some .deny else none

/-- The starting run-state of an owned page (R6). -/
def OwnRun.start : OwnRun := { version := 0, span := none }

/-- The starting mirror record (R6, R52). -/
def MirrorRun.start : MirrorRun := { state := .empty, last := none, age := none, mark := .none }

/-- The descriptor that the arguments of SET_PAGE name, with the starting run-state of its variant, or out of range
(R6, R176). The age-limit byte is examined for read route MIRROR alone, and every value of it is in range. -/
def variantOf : PageArgs → Option PageVariant
  | .self policy channel remote watch =>
    match policyOf policy channel, remoteWritesOf remote, yesNoOf watch with
    | some p, some r, some w => some (.own { policy := p, remoteWrites := r, watch := w } OwnRun.start)
    | _, _, _ => none
  | .peer owner readRoute writeRoute ageLimit watch =>
    match writeRouteOf writeRoute, yesNoOf watch with
    | some wr, some w =>
      if readRoute = 0 then
        some (.mirror { owner := owner, writeRoute := wr, ageLimit := ageLimit.toNat, watch := w } MirrorRun.start)
      else if readRoute = 1 then some (.fetch { owner := owner, writeRoute := wr, watch := w })
      else none
    | _, _ => none
  | .none => some .none
  | .reserved _ => none

/-- The channel kind byte (R177). -/
def kindOf (b : Byte) : Option ChannelKind :=
  if b = 0 then some .gatherOnce
  else if b = 1 then some .gatherQuiet
  else if b = 2 then some .period
  else none

/-- The kind, prescale and count of SET_CHANNEL, or out of range; the count byte holds the count less one (R177). -/
def channelConfigOf (kind prescale countLess : Byte) : Option Channel :=
  match kindOf kind with
  | some k =>
    if prescale.toNat = 0 ∨ 64 < prescale.toNat then none
    else some { kind := k, prescale := prescale.toNat, count := countLess.toNat + 1, run := none }
  | none => none

/-- A page, offset and count of READ or WRITE that pass R11. -/
structure Access where
  page   : PageNo
  offset : Nat
  count  : Nat
  deriving DecidableEq, Repr

/-- The argument check of READ and WRITE (R11). -/
def accessOf (page offset count : Byte) : Option Access :=
  match pageOf page with
  | some p =>
    if offset.toNat < Config.pageWords ∧ 1 ≤ count.toNat ∧ count.toNat ≤ Config.longestAccess ∧
        offset.toNat + count.toNat ≤ Config.pageWords then
      some { page := p, offset := offset.toNat, count := count.toNat }
    else none
  | none => none

/-! ### Result codes -/

/-- The response statuses of Table 10.2. -/
inductive Status where
  | ok
  | queued
  | empty
  | pending
  | wrongState
  | badArgument
  | unmapped
  | denied
  | disputed
  | full
  | ownerLost
  | noRequest
  | unknownCommand
  deriving DecidableEq, Repr

/-- Table 10.2. -/
def Status.code : Status → Byte
  | .ok => 0x00#8
  | .queued => 0x01#8
  | .empty => 0x02#8
  | .pending => 0x03#8
  | .wrongState => 0x10#8
  | .badArgument => 0x11#8
  | .unmapped => 0x12#8
  | .denied => 0x13#8
  | .disputed => 0x14#8
  | .full => 0x15#8
  | .ownerLost => 0x16#8
  | .noRequest => 0x17#8
  | .unknownCommand => 0x1F#8

/-- Table 10.4, byte 0. -/
def StationState.code : StationState → Byte
  | .setup => 0
  | .joining => 1
  | .active => 2
  | .muted => 3
  | .leaving => 4

/-- Table 10.4, byte 1. -/
def ConfigError.code : ConfigError → Byte
  | .none => 0
  | .badStation => 1
  | .badOwner => 2
  | .badChannel => 3
  | .ringMismatch => 4

/-- Table 10.4, byte 2. -/
def MutedReason.code : MutedReason → Byte
  | .none => 0
  | .aborts => 1
  | .duplicateStation => 2

/-- Table 7.4. -/
def remoteCode : RemoteStatus → Byte
  | .done => 0
  | .notOwner => 1
  | .disputed => 2
  | .refused => 3
  | .range => 4

/-- The remote status a status byte names, if it names one (Table 7.4, R79). -/
def remoteStatusOf (b : Byte) : Option RemoteStatus :=
  if b = 0 then some .done
  else if b = 1 then some .notOwner
  else if b = 2 then some .disputed
  else if b = 3 then some .refused
  else if b = 4 then some .range
  else none

/-- The outcome byte of a FAILED entry (R179). -/
def LocalReason.code : LocalReason → Byte
  | .timeout => 0x80#8
  | .ownerLost => 0x81#8
  | .muted => 0x82#8
  | .cancelled => 0x83#8

/-- The kind byte of COLLECT (R179); a REFRESH entry is never reported (R86). -/
def RequestKind.code : RequestKind → Byte
  | .read => 0
  | .write _ => 1
  | .refresh => 2

/-- The kind byte of CHANNEL_STATE (R182). -/
def ChannelKind.code : ChannelKind → Byte
  | .gatherOnce => 0
  | .gatherQuiet => 1
  | .period => 2

/-- The mirror-state byte of PAGE_STATE (R181), and the page-state byte of READ for a mirror that is not EMPTY (R178). -/
def MirrorState.code : MirrorState → Byte
  | .empty => 0
  | .fresh => 1
  | .gapped => 2
  | .stale => 3

/-- The refresh-mark byte of PAGE_STATE (R181). -/
def RefreshMark.code : RefreshMark → Byte
  | .none => 0
  | .wanted => 1
  | .pending => 2

/-- The queued-mark byte of PAGE_STATE (R181). -/
def queuedCode : Option Extent → Byte
  | none => 0
  | some .span => 1
  | some .full => 2

/-- A flag as one byte. -/
def boolByte (b : Bool) : Byte := if b then 1 else 0

/-- The station number as one byte. -/
def stationByte (s : Station) : Byte := byteOf s.val

end Sys2Proof.Machine
end

