-- ==== Sys2Proof/Machine/Flags.lean ====
section
/-! DEFINITION. The event flags, the event mask and INTn (R183 to R186), and the saturating counters (R129). -/

namespace Sys2Proof.Machine

/-- The event flags (Table 10.5). -/
inductive Event where
  | joined
  | muted
  | left
  | configError
  | dispute
  | peerChange
  | requestDone
  | notifyLost
  deriving DecidableEq, Repr

/-- The bit of a flag in the flags byte and in the mask (Table 10.5). -/
def Event.bit : Event → Nat
  | .joined => 0
  | .muted => 1
  | .left => 2
  | .configError => 3
  | .dispute => 4
  | .peerChange => 5
  | .requestDone => 6
  | .notifyLost => 7

/-- The byte with one flag's bit set. -/
def Event.byte (e : Event) : Byte := BitVec.twoPow 8 e.bit

/-- Whether a flag is set (R183). -/
def State.flag (s : State) (e : Event) : Bool := s.flags.getLsbD e.bit

/-- Setting a flag; one that is set stays set (R183). -/
def setFlag (e : Event) (s : State) : State := { s with flags := s.flags ||| e.byte }

/-- Clearing every flag named by a 1 bit (R184). -/
def clearFlags (named : Byte) (s : State) : State := { s with flags := s.flags &&& ~~~named }

/-- INTn is low while an unmasked flag is set, or the notify queue is not empty with NOTIFY enabled (R186). -/
def State.intnLow (s : State) : Bool :=
  (s.flags &&& s.mask) != 0 || (s.notifyEnable && !s.notify.isEmpty)

/-- Advancing a saturating 16-bit counter: at 65535 it stays (R129). -/
def bump (c : BitVec 16) : BitVec 16 := if c = 0xFFFF#16 then c else c + 1

/-- The names of the six counters (R129). -/
inductive CounterName where
  | broken
  | malformed
  | oldUpdates
  | lateReplies
  | overruns
  | notifyLost
  deriving DecidableEq, Repr

/-- Advancing one of the six counters by 1 (R128, R129). -/
def advance (n : CounterName) (s : State) : State :=
  { s with counters :=
      match n with
      | .broken => { s.counters with broken := bump s.counters.broken }
      | .malformed => { s.counters with malformed := bump s.counters.malformed }
      | .oldUpdates => { s.counters with oldUpdates := bump s.counters.oldUpdates }
      | .lateReplies => { s.counters with lateReplies := bump s.counters.lateReplies }
      | .overruns => { s.counters with overruns := bump s.counters.overruns }
      | .notifyLost => { s.counters with notifyLost := bump s.counters.notifyLost } }

/-- All six counters at 0 (R129). -/
def LineCounters.zero : LineCounters :=
  { broken := 0, malformed := 0, oldUpdates := 0, lateReplies := 0, overruns := 0, notifyLost := 0 }

/-- The status byte and the result bytes of a command, as the host clocks them out (R171). -/
def respond (st : Status) (result : List Byte) (s : State) : State :=
  { s with response := st.code :: result }

end Sys2Proof.Machine
end

