-- ==== Sys2Proof/Machine/Ops.lean ====
section
/-! DEFINITION. The shared operations on the station's collections: page memory (R1), tick-counted timers (R42), the notify
queue (R187), the publish queue (R24), writes into the store (R19), the transmit buffer's discards (R143), and allocation,
ending and refresh claims of the request table (R58, R75, R88 to R92). Each is a whole change of `State`. -/

namespace Sys2Proof.Machine

/-! ### Page memory -/

/-- The linear address of page:offset (R1). -/
def linear (p : PageNo) (offset : Nat) : Nat := p.val * Config.pageWords + offset

/-- The word at a linear address; an unlisted address holds what hardware reset left there (R1, R2). -/
def readCell : List (Nat × Word) → Nat → Word
  | [], _ => Config.clearedWord
  | (a, w) :: rest, k => if a = k then w else readCell rest k

/-- Page memory after one word is written: the list keeps rising addresses and lists no cleared word. -/
def writeCell : List (Nat × Word) → Nat → Word → List (Nat × Word)
  | [], k, v => if v = Config.clearedWord then [] else [(k, v)]
  | (a, w) :: rest, k, v =>
    if k < a then
      if v = Config.clearedWord then (a, w) :: rest else (k, v) :: (a, w) :: rest
    else if k = a then
      if v = Config.clearedWord then rest else (k, v) :: rest
    else (a, w) :: writeCell rest k v

/-- Words written at consecutive addresses from `k`, in the order given. -/
def writeCells : List (Nat × Word) → Nat → List Word → List (Nat × Word)
  | m, _, [] => m
  | m, k, w :: ws => writeCells (writeCell m k w) (k + 1) ws

/-- The words at `n` consecutive addresses from `k`. -/
def readCells (m : List (Nat × Word)) (k : Nat) : Nat → List Word
  | 0 => []
  | n + 1 => readCell m k :: readCells m (k + 1) n

/-- One word of page memory (R1). -/
def State.word (s : State) (p : PageNo) (offset : Nat) : Word := readCell s.memory (linear p offset)

/-- `count` words of page `p` from `offset`. -/
def State.words (s : State) (p : PageNo) (offset count : Nat) : List Word :=
  readCells s.memory (linear p offset) count

/-- Words written into page `p` from `offset` on (R16, R56). -/
def putWords (p : PageNo) (offset : Nat) (ws : List Word) (s : State) : State :=
  { s with memory := writeCells s.memory (linear p offset) ws }

/-- The canonical form of page memory from `low` on: addresses rise, stay below 4096, and no cleared word is listed. -/
def cellsWf : Nat → List (Nat × Word) → Bool
  | _, [] => true
  | low, (a, w) :: rest => decide (low ≤ a) && decide (a < 4096) && decide (w ≠ Config.clearedWord) && cellsWf (a + 1) rest

/-- The canonical form of page memory. -/
def memoryWf (m : List (Nat × Word)) : Bool := cellsWf 0 m

/-! ### Tables -/

/-- A table with every record replaced, by its number. -/
def mapTable {α : Type} {n : Nat} (f : Fin n → α → α) (v : Vector α n) : Vector α n :=
  Vector.ofFn fun i => f i v[i]

/-- The page's descriptor and run-state. -/
def State.variant (s : State) (p : PageNo) : PageVariant := s.pages[p].variant

/-- Whether the page's DISPUTED flag is set (R9). -/
def State.disputed (s : State) (p : PageNo) : Bool := s.pages[p].disputed

/-- Replacing a page's descriptor and run-state. -/
def setVariant (p : PageNo) (v : PageVariant) (s : State) : State :=
  { s with pages := s.pages.set p { s.pages[p] with variant := v } }

/-- The station that a peer descriptor names as owner (R5). -/
def PageVariant.peerOwner : PageVariant → Option Station
  | .mirror d _ => some d.owner
  | .fetch d => some d.owner
  | _ => .none

/-- The write route of a peer descriptor (R5). -/
def PageVariant.writeRoute : PageVariant → Option WriteRoute
  | .mirror d _ => some d.writeRoute
  | .fetch d => some d.writeRoute
  | _ => .none

/-- Whether the descriptor is SELF (R4). -/
def PageVariant.isOwn : PageVariant → Bool
  | .own _ _ => true
  | _ => false

/-- Whether a peer record is PRESENT (R164). -/
def PeerState.isPresent : PeerState → Bool
  | .present _ => true
  | _ => false

/-- Whether station `x` is PRESENT in the peer table (R164). -/
def State.isPresent (s : State) (x : Station) : Bool := s.peers[x].state.isPresent

/-! ### Tick-counted timers -/

/-- A timer loaded with a prescale and a count (R42). -/
def Counter.load (prescale count : Nat) : Counter := { pre := prescale, main := count, due := false }

/-- One tick of a running timer (R42). The tick that would bring the main count to 0 leaves the counts and marks the expiry
due; the expiry row then takes it (notes/assumptions/4.md). A further tick taken before that row is lost to this timer: the
spec has no such tick, and the model chooses that the reload by the expiry row of a PERIOD channel counts from that row
(notes/assumptions/34.md). -/
def Counter.tick (prescale : Nat) (c : Counter) : Counter :=
  if c.due then c
  else if 1 < c.pre then { c with pre := c.pre - 1 }
  else if 1 < c.main then { c with pre := prescale, main := c.main - 1 }
  else { c with due := true }

/-- A channel loaded by R42 and COUNTING. -/
def Channel.load (c : Channel) : Channel := { c with run := some (Counter.load c.prescale c.count) }

/-- Loading channel `c` (R42). -/
def loadChannel (c : ChannelNo) (s : State) : State :=
  { s with channels := s.channels.set c s.channels[c].load }

/-- Every channel IDLE, with its configuration kept (R48). -/
def idleChannels (s : State) : State :=
  { s with channels := mapTable (fun _ c => { c with run := none }) s.channels }

/-- A write signal to channel `c`: GATHER_ONCE loads from IDLE alone (R44), GATHER_QUIET loads always (R45), a PERIOD
channel receives no write signal (R43). -/
def signalChannel (c : ChannelNo) (s : State) : State :=
  match s.channels[c].kind with
  | .gatherOnce => if s.channels[c].run.isNone then loadChannel c s else s
  | .gatherQuiet => loadChannel c s
  | .period => s

/-- The age counter of a mirror after an application: loaded with the age limit, or stopped with limit 0 (R63). -/
def ageLoad (limit : Nat) : Option Counter :=
  if limit = 0 then none else some (Counter.load Config.ticksPerAge limit)

/-! ### The notify queue -/

/-- Appending a page number to the notify queue (R187). -/
def notifyAppend (p : PageNo) (s : State) : State :=
  if p ∈ s.notify then s
  else if Config.notifyQueueSize ≤ s.notify.length then setFlag .notifyLost (advance .notifyLost s)
  else { s with notify := s.notify ++ [p] }

/-- Appending a page number if its page is watched (R68, R22). -/
def notifyIf (watch : Bool) (p : PageNo) (s : State) : State := if watch then notifyAppend p s else s

/-! ### The publish queue -/

/-- The extent of two queueings together: FULL if either is (R24). -/
def Extent.join : Extent → Extent → Extent
  | .span, .span => .span
  | _, _ => .full

/-- The queued mark of a page: its extent while it is in the publish queue (R23). -/
def queuedMark (q : List (PageNo × Extent)) (p : PageNo) : Option Extent :=
  (q.find? fun e => e.1 = p).map Prod.snd

/-- A page put in the queue: appended, or left in place with the extents joined (R24). -/
def queueMerge (q : List (PageNo × Extent)) (p : PageNo) (x : Extent) : List (PageNo × Extent) :=
  if q.any fun e => e.1 = p then q.map fun e => if e.1 = p then (p, e.2.join x) else e
  else q ++ [(p, x)]

/-- An owned page whose policy is not QUIET and that is not DISPUTED (R24). -/
def State.eligible (s : State) (p : PageNo) : Bool :=
  match s.variant p with
  | .own d _ => d.policy != .quiet && !s.disputed p
  | _ => false

/-- Queueing a page with an extent (R24). -/
def enqueue (x : Extent) (p : PageNo) (s : State) : State :=
  if s.station = .active ∧ s.eligible p then { s with publishQueue := queueMerge s.publishQueue p x } else s

/-- Queueing every page that `sel` chooses, in rising page number. -/
def enqueueAll (sel : PageNo → Bool) (x : Extent) (s : State) : State :=
  (List.finRange 64).foldl (fun s p => if sel p then enqueue x p s else s) s

/-- The channel a page is attached to (R25, R49). -/
def PageVariant.attached : PageVariant → Option ChannelNo
  | .own d _ =>
    match d.policy with
    | .gather c => some c
    | .period c => some c
    | _ => .none
  | _ => .none

/-- Whether an owned page has a dirty span. -/
def PageVariant.hasSpan : PageVariant → Bool
  | .own _ r => r.span.isSome
  | _ => false

/-! ### Writes into the store -/

/-- The span after a write that covers offsets low..high (R20). -/
def widen (old : Option Span) (low high : Nat) : Span :=
  match old with
  | none => { low := low, high := high }
  | some sp => { low := min sp.low low, high := max sp.high high }

/-- The publication unit's action by policy after a write (R21); `enqueue` and this act in ACTIVE alone. -/
def policyAction (p : PageNo) (policy : Policy) (s : State) : State :=
  if s.station = .active then
    match policy with
    | .onWrite => enqueue .span p s
    | .gather c => signalChannel c s
    | .period _ => s
    | .quiet => s
  else s

/-- A write into the store of an owned page: words, span, policy, as one change (R19). -/
def storeWrite (p : PageNo) (offset : Nat) (ws : List Word) (s : State) : State :=
  match s.variant p with
  | .own d r =>
    let r' := if d.policy = .quiet then r else { r with span := some (widen r.span offset (offset + ws.length - 1)) }
    policyAction p d.policy (setVariant p (.own d r') (putWords p offset ws s))
  | _ => s

/-! ### The transmit buffer -/

/-- A discard: a HELD frame of a chosen origin is removed, a DRIVEN one is marked (R143). -/
def discardFrame (sel : Origin → Bool) (s : State) : State :=
  match s.buffer with
  | some f =>
    if sel f.origin then
      { s with buffer := if f.driven then some { f with discard := true } else none }
    else s
  | none => s

/-! ### The request table -/

/-- Whether an entry is QUEUED or SENT. -/
def Request.isOpen (r : Request) : Bool :=
  match r.phase with
  | .queued _ => true
  | .sent _ => true
  | _ => false

/-- Whether an entry's kind is REFRESH. -/
def Request.isRefresh (r : Request) : Bool :=
  match r.kind with
  | .refresh => true
  | _ => false

/-- Whether an entry's frame is in the transmit buffer (R71). -/
def Request.isFramed (r : Request) : Bool :=
  match r.phase with
  | .queued framed => framed
  | _ => false

/-- The lowest-numbered FREE tag (R75). -/
def lowestFree (table : Vector (Option Request) 16) : Option Tag :=
  (List.finRange 16).find? fun t => table[t].isNone

/-- The number of FREE entries (R87). -/
def freeEntries (table : Vector (Option Request) 16) : Nat :=
  (List.finRange 16).countP fun t => table[t].isNone

/-- Replacing the entry of a tag. -/
def setEntry (t : Tag) (e : Option Request) (s : State) : State :=
  { s with table := s.table.set t e }

/-- Allocation of tag `t` for a claim (R75): the issue counter advances, the entry is QUEUED at attempt 0, and the tag joins
the send order at the tail. -/
def allocate (t : Tag) (kind : RequestKind) (owner : Station) (page : PageNo) (offset count : Nat) (s : State) : State :=
  let issue := s.issues[t] + 1
  { s with
    issues := s.issues.set t issue
    table := s.table.set t (some { kind := kind, owner := owner, page := page, offset := offset, count := count,
                                   issue := issue, attempt := 0, phase := .queued false })
    sendOrder := s.sendOrder ++ [t] }

/-- Whether the entry of tag `t` is open and chosen. -/
def State.openHit (s : State) (sel : Request → Bool) (t : Tag) : Bool :=
  match s.table[t] with
  | some r => r.isOpen && sel r
  | none => false

/-- Whether the entry of tag `t` is open, chosen and framed. -/
def State.framedHit (s : State) (sel : Request → Bool) (t : Tag) : Bool :=
  match s.table[t] with
  | some r => r.isOpen && sel r && r.isFramed
  | none => false

/-- Whether the entry of tag `t` is an open READ or WRITE and chosen. -/
def State.hostHit (s : State) (sel : Request → Bool) (t : Tag) : Bool :=
  match s.table[t] with
  | some r => r.isOpen && sel r && !r.isRefresh
  | none => false

/-- An entry ended from outside: READ and WRITE fail with the reason, REFRESH becomes FREE (R89, R91, R92). -/
def endEntry (sel : Request → Bool) (reason : LocalReason) : Option Request → Option Request
  | some r =>
    if r.isOpen && sel r then
      if r.isRefresh then none else some { r with phase := .failed reason }
    else some r
  | none => none

/-- Every chosen QUEUED or SENT entry ended from outside, with its tag out of the send order, its frame discarded (R88) and
REQUEST_DONE set if a READ or WRITE failed (R87). -/
def endRequests (sel : Request → Bool) (reason : LocalReason) (s : State) : State :=
  let freed :=
    { discardFrame (fun o => match o with | .request t => s.framedHit sel t | _ => false) s with
      table := mapTable (fun _ e => endEntry sel reason e) s.table
      sendOrder := s.sendOrder.filter fun t => !s.openHit sel t }
  if (List.finRange 16).any fun t => s.hostHit sel t then setFlag .requestDone freed else freed

/-- The refresh mark of a mirrored page (R57); NONE for other pages. -/
def PageVariant.mark : PageVariant → RefreshMark
  | .mirror _ r => r.mark
  | _ => .none

/-- A page with its refresh mark replaced. -/
def PageVariant.withMark (m : RefreshMark) : PageVariant → PageVariant
  | .mirror d r => .mirror d { r with mark := m }
  | v => v

/-- Every page's descriptor and run-state replaced by its number; DISPUTED flags kept. -/
def mapVariants (f : PageNo → PageVariant → PageVariant) (s : State) : State :=
  { s with pages := mapTable (fun p pg => { pg with variant := f p pg.variant }) s.pages }

/-- The PENDING marks of the pages return to NONE; WANTED marks stay (R61). -/
def dropPending (s : State) : State :=
  mapVariants (fun _ v => if v.mark = .pending then v.withMark .none else v) s

/-- The claim of one page (R58): its mark is WANTED, its owner PRESENT and an entry FREE. -/
def claimPage (p : PageNo) (s : State) : State :=
  match s.variant p with
  | .mirror d r =>
    if r.mark = .wanted ∧ s.isPresent d.owner then
      match lowestFree s.table with
      | some t =>
        setVariant p (.mirror d { r with mark := .pending }) (allocate t .refresh d.owner p 0 Config.pageWords s)
      | none => s
    else s
  | _ => s

/-- The refresh claims: in ACTIVE, WANTED pages whose owners are PRESENT claim FREE entries in rising page number, one entry
each, until no page qualifies or no entry is FREE (R58). -/
def claimRefreshes (s : State) : State :=
  if s.station = .active then (List.finRange 64).foldl (fun s p => claimPage p s) s else s

/-- A refresh that ends without usable words: STALE, age counter stopped, mark NONE; an EMPTY mirror is left EMPTY (R60). -/
def refreshFailed (p : PageNo) (s : State) : State :=
  match s.variant p with
  | .mirror d r =>
    setVariant p
      (.mirror d { r with state := if r.state = .empty then .empty else .stale, age := none, mark := .none }) s
  | _ => s

end Sys2Proof.Machine
end

