-- ==== Sys2Proof/Machine/Lifecycle.lean ====
section
/-! DEFINITION. The moves between station states, each one change of `State` (R150 to R163), and the checks of JOIN (R18). -/

namespace Sys2Proof.Machine

/-- While RESETn is low no transaction is taken, nothing is taken from the line and no tick is given (R163, R172, R38). -/
def unlessHeld (f : State → State) (s : State) : State := if s.resetHeld then s else f s

/-- What a command answers: always a next state. A change of the running station takes place unless RESETn is low. -/
def taken (f : State → State) (s : State) : Host.Outcome State Fault Refusal := .next (unlessHeld f s)

/-- The configuration error of one page's descriptor at JOIN (R18, Table 1.3). -/
def pageError (record : StationRecord) (channels : Vector Channel 8) : PageVariant → Option ConfigError
  | .none => .none
  | .own d _ =>
    match d.policy with
    | .gather c => if channels[c].kind = .period then some .badChannel else .none
    | .period c => if channels[c].kind = .period then .none else some .badChannel
    | _ => .none
  | .mirror d _ => if record.ring ≤ d.owner.val ∨ d.owner = record.own then some .badOwner else .none
  | .fetch d => if record.ring ≤ d.owner.val ∨ d.owner = record.own then some .badOwner else .none

/-- The first check of JOIN that fails: the own number against N, then the pages from 0 to 63 (R18). -/
def joinError (s : State) : Option ConfigError :=
  if s.record.ring ≤ s.record.own.val then some .badStation
  else (List.finRange 64).findSome? fun p => pageError s.record s.channels (s.variant p)

/-- A mirrored page set to its starting values; other pages as they are (R52). -/
def PageVariant.emptied : PageVariant → PageVariant
  | .mirror d _ => .mirror d MirrorRun.start
  | v => v

/-- A page at entry to SETUP: mirrors EMPTY, versions 0, spans removed (R35, R52). -/
def PageVariant.restarted : PageVariant → PageVariant
  | .mirror d _ => .mirror d MirrorRun.start
  | .own d _ => .own d OwnRun.start
  | v => v

/-- A peer record with nothing known of its station (R164). -/
def PeerRecord.start : PeerRecord := { state := .absent, announced := none }

/-- Every peer record ABSENT (R164). -/
def clearPeers (s : State) : State := { s with peers := Vector.replicate 32 PeerRecord.start }

/-- The publish queue emptied, and with it every queued mark (R34). -/
def clearPublishQueue (s : State) : State := { s with publishQueue := [] }

/-- Both marks clear and the presence timer stopped (R145, R148). -/
def clearMarks (s : State) : State :=
  { s with presenceMark := false, responseMark := false, presenceTimer := none }

/-- The actions of entry to SETUP that every way in has in common (R161): everything of the session is dropped; store words,
configuration, request table, event flags, mask, counters, MUTED reason and last configuration error are kept. The receiver,
which takes nothing in SETUP, is put to RESTING (notes/assumptions/7.md). -/
def enterSetup (s : State) : State :=
  { s with
    station := .setup
    transmitter := .idle
    receiver := .resting
    buffer := none
    view := none
    accessTimer := none
    listen := none
    windowOpen := false
    abortCount := 0
    presenceTimer := none
    presenceMark := false
    responseMark := false
    pages := mapTable (fun _ pg => { variant := pg.variant.restarted, disputed := false }) s.pages
    peers := Vector.replicate 32 PeerRecord.start
    publishQueue := []
    channels := mapTable (fun _ c => { c with run := none }) s.channels
    replyQueue := []
    filter := []
    notify := [] }

/-- Entry to JOINING (R154): mirrors EMPTY, peers ABSENT, filter empty, view UNKNOWN, access timer STOPPED, the listen period
begins at count 0, and the receiver waits for rest, whose count starts at the entry, from MUTED too (R117;
notes/assumptions/31.md). The cause tells a REJOIN from a JOIN. -/
def enterJoining (cause : RecoveryCause) (s : State) : State :=
  { mapVariants (fun _ v => v.emptied) s with
    station := .joining
    peers := Vector.replicate 32 PeerRecord.start
    filter := []
    receiver := .recovering cause 0
    view := none
    accessTimer := none
    listen := some 0
    windowOpen := false
    buffer := none
    abortCount := 0
    presenceTimer := none
    presenceMark := false
    responseMark := false }

/-- Entry to MUTED (R157, R145): the transmit buffer is discarded, the queues emptied, the channels IDLE, open requests ended
with reason MUTED, and MUTED set. -/
def enterMuted (reason : MutedReason) (s : State) : State :=
  let s := endRequests (fun _ => true) .muted (dropPending s)
  let s := discardFrame (fun _ => true) s
  let s := clearMarks (clearPublishQueue (idleChannels s))
  setFlag .muted
    { s with station := .muted, mutedReason := reason, abortCount := 0, listen := none, replyQueue := [] }

/-- LEAVE in ACTIVE (R159): requests cancelled, queues emptied, channels IDLE, marks cleared; a held frame other than a
request frame is kept. -/
def enterLeaving (s : State) : State :=
  let s := endRequests (fun _ => true) .cancelled (dropPending s)
  let s := clearMarks (clearPublishQueue (idleChannels s))
  { s with station := .leaving, replyQueue := [] }

/-- The presence period P in age units: half the silence limit, rounded down (R146). -/
def StationRecord.presenceUnits (r : StationRecord) : Nat := r.silence / 2

/-- The presence timer loaded with P age units (R146). -/
def loadPresenceTimer (s : State) : State :=
  { s with presenceTimer := some (Counter.load Config.ticksPerAge s.record.presenceUnits) }

/-- Every PERIOD channel loaded (R47). -/
def loadPeriodChannels (s : State) : State :=
  { s with channels := mapTable (fun _ c => if c.kind = .period then c.load else c) s.channels }

/-- Every eligible owned page queued FULL: the opening and the welcome publication (R27, R28). -/
def publishAll (s : State) : State := enqueueAll (fun _ => true) .full s

/-- Entry to ACTIVE (R156): JOINED, PERIOD channels and presence timer loaded, the opening publication, and the claims of the
marks set WANTED in JOINING. -/
def enterActive (s : State) : State :=
  let s := setFlag .joined { s with station := .active }
  claimRefreshes (publishAll (loadPeriodChannels (loadPresenceTimer s)))

end Sys2Proof.Machine
end

