-- ==== Sys2Proof/Machine/Peers.lean ====
section
/-! DEFINITION. The peer table unit's shared changes (R164 to R170): presence renewed, an owner lost, an owner rejoined, the
dispute check and a page becoming DISPUTED. -/

namespace Sys2Proof.Machine

/-- Replacing the record of station `x`. -/
def setPeer (x : Station) (r : PeerRecord) (s : State) : State := { s with peers := s.peers.set x r }

/-- The silence counter loaded with the station's own silence limit (R165). -/
def State.silenceLoad (s : State) : Counter := Counter.load Config.ticksPerAge s.record.silence

/-- A good frame from `x` renews its presence; a record that was ABSENT or SILENT becomes PRESENT with PEER_CHANGE (R165). -/
def renewPresence (x : Station) (s : State) : State :=
  let s' := setPeer x { s.peers[x] with state := .present s.silenceLoad } s
  if s.isPresent x then s' else setFlag .peerChange s'

/-- A mirror of a lost owner: FRESH and GAPPED become STALE with the age counter stopped, and the refresh mark returns to
NONE (R65). -/
def MirrorRun.ownerLost (r : MirrorRun) : MirrorRun :=
  if r.state = .fresh ∨ r.state = .gapped then { r with state := .stale, age := none, mark := .none }
  else { r with mark := .none }

/-- The owner-lost actions for `x`, mirror unit and request unit together (R65, R89). -/
def ownerLost (x : Station) (s : State) : State :=
  endRequests (fun r => r.owner = x) .ownerLost
    (mapVariants (fun _ v =>
      match v with
      | .mirror d r => if d.owner = x then .mirror d r.ownerLost else v
      | v => v) s)

/-- A JOIN-flagged ANNOUNCE from `x`: mirrors of `x` set EMPTY, REFRESH entries to `x` freed (R66, R90), write-filter records of
writer `x` purged (R107). READ and WRITE entries are kept. -/
def ownerRejoined (x : Station) (s : State) : State :=
  let s := mapVariants (fun _ v =>
    match v with
    | .mirror d r => if d.owner = x then .mirror d MirrorRun.start else .mirror d r
    | v => v) s
  let s := endRequests (fun r => r.isRefresh && r.owner = x) .ownerLost s
  { s with filter := s.filter.filter fun f => f.writer ≠ x }

/-- Whether an ANNOUNCE from `x` with owned set `owned` contradicts a descriptor (R169). -/
def inDispute (x : Station) (owned : PageSet) (p : PageNo) (v : PageVariant) : Bool :=
  match v with
  | .none => false
  | .own _ _ => owned.getLsbD p.val
  | .mirror d _ => if d.owner = x then !owned.getLsbD p.val else owned.getLsbD p.val
  | .fetch d => if d.owner = x then !owned.getLsbD p.val else owned.getLsbD p.val

/-- Whether the origin is an UPDATE of the page. -/
def Origin.isUpdateOf (p : PageNo) (o : Origin) : Bool := o = .update p

/-- The pages that `sel` chooses become DISPUTED in one change (R170): flags set, pages out of the publish queue, held UPDATEs
discarded, refresh marks NONE and REFRESH entries freed. -/
def becomeDisputed (sel : PageNo → Bool) (s : State) : State :=
  let s := { s with
    pages := mapTable (fun p pg =>
      if sel p then { variant := pg.variant.withMark .none, disputed := true } else pg) s.pages
    publishQueue := s.publishQueue.filter fun e => !sel e.1 }
  let s := discardFrame (fun o => match o with | .update p => sel p | _ => false) s
  endRequests (fun r => r.isRefresh && sel r.page) .ownerLost s

/-- The dispute check on an ANNOUNCE taken with ring size N: pages found in dispute whose flag is clear become DISPUTED, and
DISPUTE is set if there is one (R169, R9). -/
def disputeCheck (x : Station) (owned : PageSet) (s : State) : State :=
  let newly := fun p => inDispute x owned p (s.variant p) && !s.disputed p
  if (List.finRange 64).any newly then setFlag .dispute (becomeDisputed newly s) else s

end Sys2Proof.Machine
end

