-- ==== Sys2Proof/Machine/Timers.lean ====
section
/-! DEFINITION. The tick and the expiries of the tick-counted timers (R38, R42, R46, R47, R63, R84, R146, R166), and the refresh
claim (R58). An expiry row whose timer is not due does not take place: the load, stop or state change taken before it has
abandoned that count (R39, R44 to R48, R64, R85; notes/assumptions/3.md). -/

namespace Sys2Proof.Machine

/-- A running counter with prescale `n` takes a tick; a stopped one takes no action (R38). -/
def tickCounter (n : Nat) (c : Option Counter) : Option Counter := c.map (Counter.tick n)

/-- The age counter of a mirrored page takes a tick (R63). -/
def PageVariant.tick : PageVariant → PageVariant
  | .mirror d r => .mirror d { r with age := tickCounter Config.ticksPerAge r.age }
  | v => v

/-- The reply timer of a SENT entry takes a tick (R83). -/
def Request.tick (r : Request) : Request :=
  match r.phase with
  | .sent c => { r with phase := .sent (c.tick Config.ticksPerMs) }
  | _ => r

/-- The silence counter of a PRESENT record takes a tick (R166). -/
def PeerRecord.tick (r : PeerRecord) : PeerRecord :=
  match r.state with
  | .present c => { r with state := .present (c.tick Config.ticksPerAge) }
  | _ => r

/-- A tick reaches every running tick-counted timer, and the generator's count starts again (R38). -/
def tickEffect (s : State) : State :=
  { mapVariants (fun _ v => v.tick) s with
    refclk := s.refclk - Config.refclkPerTick
    channels := mapTable (fun _ c => { c with run := tickCounter c.prescale c.run }) s.channels
    table := mapTable (fun _ e => e.map Request.tick) s.table
    peers := mapTable (fun _ r => r.tick) s.peers
    presenceTimer := tickCounter Config.ticksPerAge s.presenceTimer }

/-- TICK (R38). -/
def execTick (s : State) : Host.Outcome State Fault Refusal := taken tickEffect s

/-- Whether a timer's expiry is due. -/
def isDue (c : Option Counter) : Bool :=
  match c with
  | some k => k.due
  | none => false

/-- Whether a channel is of a gathering kind. -/
def ChannelKind.gathers : ChannelKind → Bool
  | .period => false
  | _ => true

/-- The expiry of a gathering channel: attached pages with a span queued SPAN, channel IDLE (R46, R25). -/
def gatherExpiryEffect (c : ChannelNo) (s : State) : State :=
  if s.channels[c].kind.gathers && isDue s.channels[c].run then
    enqueueAll (fun p => decide ((s.variant p).attached = some c) && (s.variant p).hasSpan) .span
      { s with channels := s.channels.set c { s.channels[c] with run := none } }
  else s

/-- GATHER_CHANNEL_EXPIRY (R46). -/
def execGatherChannelExpiry (c : ChannelNo) (s : State) : Host.Outcome State Fault Refusal :=
  taken (gatherExpiryEffect c) s

/-- The expiry of a PERIOD channel: attached pages queued FULL, channel loaded again (R47, R25). -/
def periodExpiryEffect (c : ChannelNo) (s : State) : State :=
  if !s.channels[c].kind.gathers && isDue s.channels[c].run then
    enqueueAll (fun p => decide ((s.variant p).attached = some c)) .full (loadChannel c s)
  else s

/-- PERIOD_CHANNEL_EXPIRY (R47). -/
def execPeriodChannelExpiry (c : ChannelNo) (s : State) : Host.Outcome State Fault Refusal :=
  taken (periodExpiryEffect c) s

/-- The expiry of a SENT entry's reply timer: retried at the tail of the send order, failed with TIMEOUT, or freed as a failed
refresh (R84). -/
def replyTimeout (t : Tag) (r : Request) (s : State) : State :=
  if r.attempt < s.record.retryLimit then
    { setEntry t (some { r with attempt := r.attempt + 1, phase := .queued false }) s with
      sendOrder := s.sendOrder ++ [t] }
  else if r.isRefresh then setEntry t none (refreshFailed r.page s)
  else setFlag .requestDone (setEntry t (some { r with phase := .failed .timeout }) s)

/-- The expiry takes place for a SENT entry whose timer is due. -/
def replyTimerExpiryEffect (t : Tag) (s : State) : State :=
  match s.table[t] with
  | some r =>
    match r.phase with
    | .sent c => if c.due then replyTimeout t r s else s
    | _ => s
  | none => s

/-- REPLY_TIMER_EXPIRY (R84). -/
def execReplyTimerExpiry (t : Tag) (s : State) : Host.Outcome State Fault Refusal :=
  taken (replyTimerExpiryEffect t) s

/-- The expiry of a mirror's age counter: FRESH and GAPPED become STALE, the counter stops, the mark is kept (R63). -/
def ageExpiryEffect (p : PageNo) (s : State) : State :=
  match s.variant p with
  | .mirror d r =>
    if isDue r.age then
      setVariant p
        (.mirror d { r with state := if r.state = .fresh ∨ r.state = .gapped then .stale else r.state, age := none }) s
    else s
  | _ => s

/-- AGE_COUNTER_EXPIRY (R63). -/
def execAgeCounterExpiry (p : PageNo) (s : State) : Host.Outcome State Fault Refusal := taken (ageExpiryEffect p) s

/-- The expiry of a PRESENT record's silence counter: SILENT, PEER_CHANGE and the owner-lost actions (R166). An UPDATE taken at
about the same time falls before the expiry or after the owner-lost actions, as whole rows (R65; notes/assumptions/30.md). -/
def silenceExpiryEffect (x : Station) (s : State) : State :=
  match s.peers[x].state with
  | .present c =>
    if c.due then ownerLost x (setFlag .peerChange (setPeer x { s.peers[x] with state := .silent } s)) else s
  | _ => s

/-- SILENCE_COUNTER_EXPIRY (R166). -/
def execSilenceCounterExpiry (x : Station) (s : State) : Host.Outcome State Fault Refusal :=
  taken (silenceExpiryEffect x) s

/-- The expiry of the presence timer: the PRESENCE mark is set and the timer stops (R146). -/
def presenceExpiryEffect (s : State) : State :=
  if isDue s.presenceTimer then { s with presenceTimer := none, presenceMark := true } else s

/-- PRESENCE_TIMER_EXPIRY (R146). -/
def execPresenceTimerExpiry (s : State) : Host.Outcome State Fault Refusal := taken presenceExpiryEffect s

/-- REFRESH_CLAIM (R58). -/
def execRefreshClaim (s : State) : Host.Outcome State Fault Refusal := taken claimRefreshes s

end Sys2Proof.Machine
end

