-- ==== Sys2Proof/Machine/Frames.lean ====
section
/-! DEFINITION. The frames the station builds and the frame selector (R30, R77, R97, R100, R116, R136 to R142), and the pins of
the line and of INTn (R110, R186). -/

namespace Sys2Proof.Machine

/-- The owned set the station announces: the pages whose descriptor is SELF (R4, R7, R116). -/
def State.ownedSet (s : State) : PageSet :=
  (List.finRange 64).foldl (fun set p => if (s.variant p).isOwn then set ||| BitVec.twoPow 64 p.val else set) 0

/-- A frame of this station: the sender is the own number (R116). -/
def State.frame (s : State) (target : Byte) (body : FrameBody) : Frame :=
  { sender := stationByte s.record.own, target := target, body := body }

/-- An ANNOUNCE of this station (R139). -/
def State.announce (s : State) (joinFlag : Bool) : Frame :=
  s.frame Config.toAll (.announce joinFlag (byteOf s.record.ring) (byteOf s.record.silence) s.ownedSet)

/-- A frame placed in the transmit buffer and started: it is DRIVEN from this instant (R133, R142). -/
def startFrame (origin : Origin) (f : Frame) (s : State) : State :=
  { s with buffer := some { origin := origin, frame := f, driven := true, discard := false }, transmitter := .sending 0 }

/-- The body of the REPLY to a FETCH, decided from the store as it stands at the build (R100). -/
def replyBody (s : State) (tag : Tag) (issue : Issue) (attempt page offset count : Byte) : FrameBody :=
  let refuse (st : RemoteStatus) : FrameBody := .reply tag issue attempt (remoteCode st) page 0 0 []
  match pageOf page with
  | none => refuse .range
  | some p =>
    if s.disputed p then refuse .disputed
    else
      match s.variant p with
      | .own _ r =>
        if count.toNat = 0 ∨ Config.pageWords < offset.toNat + count.toNat then refuse .range
        else .reply tag issue attempt (remoteCode .done) page r.version count
              (s.words p offset.toNat count.toNat)
      | _ => refuse .notOwner

/-- The frame of a reply-queue entry (R97, R100). -/
def answerFrame (s : State) : ReplyEntry → Frame
  | .reply requester tag issue attempt page offset count =>
    s.frame (stationByte requester) (replyBody s tag issue attempt page offset count)
  | .ack requester tag issue attempt status =>
    s.frame (stationByte requester) (.ack tag issue attempt (remoteCode status))

/-- The reply-queue head built and started, if there is one (R97). -/
def sendAnswer (s : State) : Option State :=
  match s.replyQueue with
  | e :: rest => some (startFrame .answer (answerFrame s e) { s with replyQueue := rest })
  | [] => none

/-- The frame of a request entry: FETCH for READ and REFRESH, WRITE for WRITE, with the present attempt (R77). -/
def requestFrame (s : State) (tag : Tag) (r : Request) : Frame :=
  match r.kind with
  | .write ws => s.frame (stationByte r.owner)
      (.write (byteOf r.page.val) (byteOf r.offset) tag r.issue (byteOf r.attempt) ws)
  | _ => s.frame (stationByte r.owner)
      (.fetch (byteOf r.page.val) (byteOf r.offset) (byteOf r.count) tag r.issue (byteOf r.attempt))

/-- The head of the send order built and started, its entry framed (R77). -/
def sendRequest (s : State) : Option State :=
  match s.sendOrder with
  | t :: rest =>
    match s.table[t] with
    | some r =>
      some (startFrame (.request t) (requestFrame s t r)
        { setEntry t (some { r with phase := .queued true }) s with sendOrder := rest })
    | none => none
  | [] => none

/-- The first offset and the words an UPDATE carries by its extent (R30). -/
def updateWords (s : State) (p : PageNo) (span : Option Span) : Extent → Nat × List Word
  | .full => (0, s.words p 0 Config.pageWords)
  | .span =>
    match span with
    | some sp => (sp.low, s.words p sp.low (sp.high + 1 - sp.low))
    | none => (0, s.words p 0 Config.pageWords)

/-- The head of the publish queue built into an UPDATE and started: version advanced, words of the extent copied, span
removed, page out of the queue (R30). -/
def sendUpdate (s : State) : Option State :=
  match s.publishQueue with
  | (p, x) :: rest =>
    match s.variant p with
    | .own d r =>
      let version := r.version + 1
      let carried := updateWords s p r.span x
      some (startFrame (.update p)
        (s.frame Config.toAll (.update (byteOf p.val) version (byteOf carried.1) carried.2))
        { setVariant p (.own d { version := version, span := none }) s with publishQueue := rest })
    | _ => none
  | [] => none

/-- A PRESENCE built and started if its mark is set; the mark stays (R140). -/
def sendPresence (s : State) : Option State :=
  if s.presenceMark then some (startFrame .presence (s.frame Config.toAll .presence) s) else none

/-- The response ANNOUNCE built and started if its mark is set; the mark is cleared (R139). -/
def sendResponseAnnounce (s : State) : Option State :=
  if s.responseMark then some (startFrame .responseAnnounce (s.announce false) { s with responseMark := false }) else none

/-- The frame selector with the transmit buffer empty: the first choice of Table 8.3 that yields a frame (R138). -/
def buildFrame (s : State) : Option State :=
  match s.station with
  | .joining => some (startFrame .joinAnnounce (s.announce true) s)
  | .active =>
    (sendResponseAnnounce s).or ((sendAnswer s).or ((sendRequest s).or ((sendUpdate s).or (sendPresence s))))
  | .leaving => some (startFrame .leave (s.frame Config.toAll .leave) s)
  | .setup => none
  | .muted => none

/-- The frame selector at a rotation slot: a held frame is sent again unchanged, else one is built; if no choice yields a
frame the slot passes (R138). -/
def selectFrame (s : State) : State :=
  match s.buffer with
  | some f => { s with buffer := some { f with driven := true }, transmitter := .sending 0 }
  | none => (buildFrame s).getD s

/-! ### Turns -/

/-- The count at which the rotation cycle ends: Q + N × W (R132). -/
def StationRecord.cycleEnd (r : StationRecord) : Nat := Config.quietGap + r.ring * Config.slotWidth

/-- The listen period in bit times: Q + W × (N + 1) (R135). -/
def StationRecord.listenPeriod (r : StationRecord) : Nat := Config.quietGap + Config.slotWidth * (r.ring + 1)

/-- The rank (own − L − 1) mod N, with UNKNOWN taken as L = N − 1 (R131). The 32 × N added keeps the difference from
falling below 0 and changes nothing modulo N. -/
def rank (own : Station) (ring : Nat) (view : Option Station) : Nat :=
  match view with
  | some l => (own.val + 32 * ring - l.val - 1) % ring
  | none => (own.val + 32 * ring - (ring - 1) - 1) % ring

/-- The count of the station's rotation slot: Q + W × (r + 1) (R137). -/
def State.slotCount (s : State) : Nat :=
  Config.quietGap + Config.slotWidth * (rank s.record.own s.record.ring s.view + 1)

/-- A count of the access timer, set back to Q where it reaches the end of the cycle (R132). -/
def StationRecord.wrapCount (r : StationRecord) (n : Nat) : Nat := if n = r.cycleEnd then Config.quietGap else n

/-! ### Pins -/

/-- LDE: high from the first bit of a frame to the last bit of the frame or of its jam (R110). -/
def State.lde (s : State) : Bool :=
  match s.transmitter with
  | .idle => false
  | _ => true

/-- LTX, `true` for high (recessive): the bit of the frame being driven; low for the bits of a jam; high otherwise
(R110, R113, R122; notes/assumptions/17.md). -/
def State.ltx (s : State) : Bool :=
  match s.transmitter with
  | .idle => true
  | .sending bit =>
    match s.buffer with
    | some f => f.frame.lineBits.getD bit true
    | none => true
  | .jamming bit => decide (bit = 0)

end Sys2Proof.Machine
end

