-- ==== Sys2Proof/Machine/Receive.lean ====
section
/-! DEFINITION. Frames received from the line: the receiver (R117, R118), the last-sender view and access timer at the end of a
frame (R130, R132, R135), and what each unit does with each kind (R54 to R60, R79 to R82, R94 to R107, R120, R126, R165 to
R168). A frame row begins at RESTING or RECEIVING: where no ACTIVITY_START row came before it, the frame's own activity
start is part of the row (notes/assumptions/5.md). -/

namespace Sys2Proof.Machine

/-! ### The end of a good frame -/

/-- Whether the station takes the line: JOINING, ACTIVE, MUTED and LEAVING (R117). -/
def State.onLine (s : State) : Bool := s.station != .setup

/-- Whether a start instant has been taken and the first bit of the station's own frame has not yet reached its receiver
(R133). -/
def ownStart (s : State) : Bool :=
  match s.transmitter, s.receiver with
  | .sending _, .resting => true
  | _, _ => false

/-- Whether the receiver waits for rest, during which it takes no frame (R117). -/
def Receiver.waits : Receiver → Bool
  | .recovering _ _ => true
  | _ => false

/-- Whether a good frame of another station can end here: the station is on the line, its receiver is not waiting for rest
(R117), and its own transmission has not reached the line. A frame row taken after a start instant, and before the own first
bit, is one that ended at about that instant (R95, R134; notes/assumptions/32.md). -/
def State.hears (s : State) : Bool := s.onLine && !s.receiver.waits && (s.transmitter = .idle || ownStart s)

/-- Whether a good frame that carries the own number can end here: only while the transmitter is IDLE (R127), and also just after
a REJOIN (R158; notes/assumptions/33.md). -/
def State.findsTwin (s : State) : Bool :=
  s.onLine && s.transmitter = .idle &&
    match s.receiver with
    | .recovering .rejoined _ => true
    | r => !r.waits

/-- The report of a good frame's end: receiver RESTING, view as named, access timer RUNNING from 0, listen period over, and a
reply window opened or not (R117, R118, R130, R132, R135, R136). -/
def goodEnd (view : Option Station) (window : Bool) (s : State) : State :=
  { s with receiver := .resting, view := view, accessTimer := some 0, listen := none, windowOpen := window }

/-- A duplicate-station frame, after the access controller has taken its sender (R126). -/
def duplicateFound (s : State) : State :=
  match s.station with
  | .muted => setFlag .muted { s with mutedReason := .duplicateStation }
  | .setup => s
  | _ => enterMuted .duplicateStation s

/-- A frame from `sender`: a duplicate-station frame if it carries the own number (R126), else taken by the access controller
and by `f` (R120). Nothing where the station does not hear it. -/
def frameFrom (sender : Station) (window : Bool) (f : State → State) (s : State) : State :=
  if sender = s.record.own then
    if s.findsTwin then duplicateFound (goodEnd (some s.record.own) false s) else s
  else if s.hears then f (goodEnd (some sender) window s)
  else s

/-- A good frame found malformed: counted, its sender taken for the view and for presence if it names a station (R119). -/
def malformedEffect (sender : Byte) (s : State) : State :=
  match stationOf sender with
  | some x => frameFrom x false (fun s => renewPresence x (advance .malformed s)) s
  | none => if s.hears then advance .malformed (goodEnd none false s) else s

/-- MALFORMED_FRAME (R119). -/
def execMalformedFrame (sender : Byte) (s : State) : Host.Outcome State Fault Refusal := taken (malformedEffect sender) s

/-- DUPLICATE_STATION_FRAME (R126). -/
def execDuplicateStationFrame (s : State) : Host.Outcome State Fault Refusal :=
  taken (fun s => frameFrom s.record.own false id s) s

/-- OTHER_TARGET_FRAME: presence, view and timer alone (R120). -/
def execOtherTargetFrame (sender : Station) (s : State) : Host.Outcome State Fault Refusal :=
  taken (frameFrom sender false (renewPresence sender)) s

/-- PRESENCE_FRAME (R165). -/
def execPresenceFrame (sender : Station) (s : State) : Host.Outcome State Fault Refusal :=
  taken (frameFrom sender false (renewPresence sender)) s

/-! ### UPDATE -/

/-- How an UPDATE of version `v` relates to a mirror (R55): the new state and refresh mark, or none if it is old. -/
def classifyUpdate (r : MirrorRun) (v : Byte) (isFull : Bool) : Option (MirrorState × RefreshMark) :=
  match r.state, r.last with
  | .empty, _ => some (if isFull then (.fresh, r.mark) else (.gapped, .wanted))
  | _, none => none
  | state, some l =>
    let d := (v - l).toNat
    if d = 0 ∨ 128 ≤ d then none
    else if isFull then some (.fresh, r.mark)
    else if d = 1 then some (if state = .gapped then .gapped else .fresh, r.mark)
    else some (.gapped, if r.mark = .none then .wanted else r.mark)

/-- Words applied to a mirror with its new record: words, last version, state and mark, age counter loaded, notification
(R56, R59). -/
def applyToMirror (p : PageNo) (d : MirrorDesc) (first : Nat) (ws : List Word) (v : Byte) (st : MirrorState)
    (mark : RefreshMark) (s : State) : State :=
  notifyIf d.watch p
    (setVariant p (.mirror d { state := st, last := some v, age := ageLoad d.ageLimit, mark := mark })
      (putWords p first ws s))

/-- An UPDATE from the owner of a mirrored page: applied or discarded as old (R55, R56). -/
def updateMirror (p : PageNo) (d : MirrorDesc) (r : MirrorRun) (v first : Byte) (ws : List Word) (s : State) : State :=
  match classifyUpdate r v (decide (first = 0 ∧ ws.length = Config.pageWords)) with
  | some (st, mark) => applyToMirror p d first.toNat ws v st mark s
  | none => advance .oldUpdates s

/-- An UPDATE tested against the page map, first row of R54 that applies. -/
def takeUpdate (sender : Station) (p : PageNo) (v first : Byte) (ws : List Word) (s : State) : State :=
  if Config.pageWords < first.toNat + ws.length then advance .malformed s
  else if s.variant p = .none then s
  else if s.disputed p then s
  else
    match s.variant p with
    | .none => s
    | .own _ _ => advance .oldUpdates s
    | .mirror d r => if d.owner = sender then updateMirror p d r v first ws s else advance .oldUpdates s
    | .fetch d => if d.owner = sender then s else advance .oldUpdates s

/-- UPDATE_FRAME (R54, R55). A count of 0, or one no body can hold, is a malformed frame (R119 tests 1 and 7). After a silence
expiry of the sender the application falls after the owner-lost actions (R65; notes/assumptions/30.md). -/
def updateFrameEffect (sender : Station) (p : PageNo) (v first : Byte) (ws : List Word) (s : State) : State :=
  if ws.length = 0 ∨ Config.longestBody < 4 + 2 * ws.length then malformedEffect (stationByte sender) s
  else frameFrom sender false (fun s => takeUpdate sender p v first ws (renewPresence sender s)) s

/-- UPDATE_FRAME (R54, R55). -/
def execUpdateFrame (sender : Station) (p : PageNo) (v first : Byte) (ws : List Word) (s : State) :
    Host.Outcome State Fault Refusal :=
  taken (updateFrameEffect sender p v first ws) s

/-! ### FETCH and WRITE -/

/-- A FETCH or WRITE taken in ACTIVE with room in the reply queue; dropped and counted with 8 entries there; ignored in other
states (R94, R95). -/
def serve (f : State → State) (s : State) : State :=
  if s.station = .active then
    if Config.replyQueueSize ≤ s.replyQueue.length then advance .overruns s else f s
  else s

/-- An answer owed, at the tail of the reply queue (R96). -/
def oweAnswer (e : ReplyEntry) (s : State) : State := { s with replyQueue := s.replyQueue ++ [e] }

/-- FETCH_FRAME (R99): nothing about the answer is decided at the arrival. It opens a reply window (R136). -/
def fetchFrameEffect (sender : Station) (page offset count : Byte) (tag : Tag) (issue : Issue) (attempt : Byte)
    (s : State) : State :=
  frameFrom sender true
    (fun s => serve (oweAnswer (.reply sender tag issue attempt page offset count)) (renewPresence sender s)) s

/-- FETCH_FRAME (R99). -/
def execFetchFrame (sender : Station) (page offset count : Byte) (tag : Tag) (issue : Issue) (attempt : Byte)
    (s : State) : Host.Outcome State Fault Refusal :=
  taken (fetchFrameEffect sender page offset count tag issue attempt) s

/-- The filter record of a writer, tag and issue (R102, R106). -/
def filterFind (filter : List FilterRecord) (writer : Station) (tag : Tag) (issue : Issue) : Option FilterRecord :=
  filter.find? fun f => f.writer = writer && f.tag = tag && f.issue = issue

/-- A record added at the tail; with 8 records the oldest is evicted (R105). -/
def filterAdd (f : FilterRecord) (filter : List FilterRecord) : List FilterRecord :=
  (if Config.filterSize ≤ filter.length then filter.drop 1 else filter) ++ [f]

/-- The status of a WRITE that misses the filter, first row of R103 that applies. -/
def writeStatus (s : State) (page offset : Byte) (count : Nat) : RemoteStatus :=
  match pageOf page with
  | none => .range
  | some p =>
    if s.disputed p then .disputed
    else
      match s.variant p with
      | .own d _ =>
        if count = 0 ∨ Config.longestAccess < count ∨ Config.pageWords < offset.toNat + count then .range
        else if d.remoteWrites = .refuse then .refused
        else .done
      | _ => .notOwner

/-- Whether an owned page is watched (R4). -/
def PageVariant.ownWatch : PageVariant → Bool
  | .own d _ => d.watch
  | _ => false

/-- A remote WRITE with status DONE: the write into the store, then the notification (R103, R22). -/
def applyRemoteWrite (page offset : Byte) (ws : List Word) (s : State) : State :=
  match pageOf page with
  | some p => notifyIf (s.variant p).ownWatch p (storeWrite p offset.toNat ws s)
  | none => s

/-- A WRITE served: a filter hit is answered with the recorded status; a miss is decided, applied if DONE, recorded and
answered (R102 to R104). -/
def serveWrite (sender : Station) (page offset : Byte) (tag : Tag) (issue : Issue) (attempt : Byte) (ws : List Word)
    (s : State) : State :=
  match filterFind s.filter sender tag issue with
  | some f => oweAnswer (.ack sender tag issue attempt f.status) s
  | none =>
    let status := writeStatus s page offset ws.length
    let written := if status = .done then applyRemoteWrite page offset ws s else s
    oweAnswer (.ack sender tag issue attempt status)
      { written with filter := filterAdd { writer := sender, tag := tag, issue := issue, status := status } written.filter }

/-- WRITE_FRAME (R102). A count no body can hold is a malformed frame (R119 test 1). It opens a reply window (R136). -/
def writeFrameEffect (sender : Station) (page offset : Byte) (tag : Tag) (issue : Issue) (attempt : Byte) (ws : List Word)
    (s : State) : State :=
  if Config.longestBody < 5 + 2 * ws.length then malformedEffect (stationByte sender) s
  else
    frameFrom sender true
      (fun s => serve (serveWrite sender page offset tag issue attempt ws) (renewPresence sender s)) s

/-- WRITE_FRAME (R102). -/
def execWriteFrame (sender : Station) (page offset : Byte) (tag : Tag) (issue : Issue) (attempt : Byte) (ws : List Word)
    (s : State) : Host.Outcome State Fault Refusal :=
  taken (writeFrameEffect sender page offset tag issue attempt ws) s

/-! ### REPLY and ACK -/

/-- The conditions of R79 that REPLY and ACK share: the entry is SENT, to this sender, of this issue and attempt. -/
def Request.answers (r : Request) (sender : Station) (issue : Issue) (attempt : Byte) : Bool :=
  (match r.phase with
   | .sent _ => true
   | _ => false) &&
    decide (r.owner = sender ∧ r.issue = issue ∧ r.attempt = attempt.toNat)

/-- The entry of a tag becomes DONE, its timer stopped, with REQUEST_DONE (R80, R81). -/
def requestAnswered (t : Tag) (r : Request) (status : RemoteStatus) (data : Option (Byte × List Word)) (s : State) :
    State :=
  setFlag .requestDone (setEntry t (some { r with phase := .done status data }) s)

/-- A REPLY matched to a READ entry (R80). -/
def readAnswered (t : Tag) (r : Request) (status : RemoteStatus) (version : Byte) (ws : List Word) (s : State) : State :=
  if status = .done then
    if ws.length = r.count then requestAnswered t r .done (some (version, ws)) s else advance .malformed s
  else requestAnswered t r status none s

/-- A REPLY matched to a REFRESH entry of page `p`, before the entry is freed (R59, R60). -/
def refreshAnswered (p : PageNo) (d : MirrorDesc) (r : MirrorRun) (status : RemoteStatus) (version : Byte)
    (ws : List Word) (s : State) : State :=
  if status ≠ .done then refreshFailed p s
  else if ws.length ≠ Config.pageWords then refreshFailed p (advance .malformed s)
  else
    match r.state, r.last with
    | .empty, _ => refreshFailed p s
    | _, none => refreshFailed p s
    | _, some l =>
      if (version - l).toNat < 128 then applyToMirror p d 0 ws version .fresh .none s
      else advance .oldUpdates (setVariant p (.mirror d { r with mark := .none }) s)

/-- A REPLY of known status: matched to the SENT READ or REFRESH entry of its tag, or late (R79). A REFRESH entry's page must
still be a mirror of the sender (Table 1.2). -/
def takeReply (sender : Station) (t : Tag) (issue : Issue) (attempt : Byte) (status : RemoteStatus) (page version : Byte)
    (ws : List Word) (s : State) : State :=
  match s.table[t] with
  | some r =>
    if r.answers sender issue attempt && decide (page.toNat = r.page.val) then
      match r.kind with
      | .read => readAnswered t r status version ws s
      | .write _ => advance .lateReplies s
      | .refresh =>
        match s.variant r.page with
        | .mirror d m =>
          if d.owner = sender then setEntry t none (refreshAnswered r.page d m status version ws s)
          else advance .lateReplies s
        | _ => advance .lateReplies s
    else advance .lateReplies s
  | none => advance .lateReplies s

/-- An unknown status code counts the frame as malformed and discards it (R79). -/
def withStatus (status : Byte) (f : RemoteStatus → State → State) (s : State) : State :=
  match remoteStatusOf status with
  | some st => f st s
  | none => advance .malformed s

/-- Whether count field and words of a REPLY agree with its status and with the longest body (R119 tests 1 and 6). -/
def replyFits (status count : Byte) (ws : List Word) : Bool :=
  if status = 0 then decide (ws.length = count.toNat ∧ 6 + 2 * ws.length ≤ Config.longestBody) else ws.isEmpty

/-- REPLY_FRAME (R79). -/
def replyFrameEffect (sender : Station) (tag : Tag) (issue : Issue) (attempt status page version count : Byte)
    (ws : List Word) (s : State) : State :=
  if replyFits status count ws then
    frameFrom sender false
      (fun s => withStatus status (fun st => takeReply sender tag issue attempt st page version ws)
        (renewPresence sender s)) s
  else malformedEffect (stationByte sender) s

/-- REPLY_FRAME (R79). -/
def execReplyFrame (sender : Station) (tag : Tag) (issue : Issue) (attempt status page version count : Byte)
    (ws : List Word) (s : State) : Host.Outcome State Fault Refusal :=
  taken (replyFrameEffect sender tag issue attempt status page version count ws) s

/-- An ACK of known status: matched to the SENT WRITE entry of its tag, or late (R79, R81). -/
def takeAck (sender : Station) (t : Tag) (issue : Issue) (attempt : Byte) (status : RemoteStatus) (s : State) : State :=
  match s.table[t] with
  | some r =>
    match r.kind with
    | .write _ =>
      if r.answers sender issue attempt then requestAnswered t r status none s else advance .lateReplies s
    | _ => advance .lateReplies s
  | none => advance .lateReplies s

/-- ACK_FRAME (R81). -/
def ackFrameEffect (sender : Station) (tag : Tag) (issue : Issue) (attempt status : Byte) (s : State) : State :=
  frameFrom sender false
    (fun s => withStatus status (fun st => takeAck sender tag issue attempt st) (renewPresence sender s)) s

/-- ACK_FRAME (R79, R81). -/
def execAckFrame (sender : Station) (tag : Tag) (issue : Issue) (attempt status : Byte) (s : State) :
    Host.Outcome State Fault Refusal :=
  taken (ackFrameEffect sender tag issue attempt status) s

/-! ### ANNOUNCE and LEAVE -/

/-- The owned set and announced silence limit recorded (R168). -/
def recordOwned (x : Station) (owned : PageSet) (limit : Byte) (s : State) : State :=
  setPeer x { s.peers[x] with announced := some (owned, limit) } s

/-- The JOIN-flag changes of an ANNOUNCE from `x`, by station state (R168). -/
def joinFlagActions (x : Station) (s : State) : State :=
  let s := ownerRejoined x s
  if s.station = .active then publishAll { s with responseMark := true } else s

/-- An ANNOUNCE from `x` (R168): the ring size first; in JOINING a mismatch ends the join in SETUP, elsewhere it is counted and
only presence is renewed. -/
def takeAnnounce (x : Station) (joinFlag : Bool) (ring silence : Byte) (owned : PageSet) (s : State) : State :=
  if ring.toNat ≠ s.record.ring then
    if s.station = .joining then setFlag .configError { enterSetup s with configError := .ringMismatch }
    else advance .malformed (renewPresence x s)
  else
    let s := disputeCheck x owned (recordOwned x owned silence (renewPresence x s))
    if joinFlag then joinFlagActions x s else s

/-- ANNOUNCE_FRAME (R168). -/
def execAnnounceFrame (sender : Station) (joinFlag : Bool) (ring silence : Byte) (owned : PageSet) (s : State) :
    Host.Outcome State Fault Refusal :=
  taken (frameFrom sender false (takeAnnounce sender joinFlag ring silence owned)) s

/-- A LEAVE frame from `x`: ABSENT with nothing recorded; PEER_CHANGE and the owner-lost actions if it was PRESENT or SILENT
(R167). -/
def takeLeave (x : Station) (s : State) : State :=
  if s.peers[x].state = .absent then setPeer x PeerRecord.start s
  else ownerLost x (setFlag .peerChange (setPeer x PeerRecord.start s))

/-- LEAVE_FRAME (R167). -/
def execLeaveFrame (sender : Station) (s : State) : Host.Outcome State Fault Refusal :=
  taken (frameFrom sender false (takeLeave sender)) s

/-! ### Broken frames and rest -/

/-- The cause once a bit time has come: a frame that ended with a REJOIN has had its turn (notes/assumptions/33.md). -/
def RecoveryCause.later : RecoveryCause → RecoveryCause
  | .brokenFrame => .brokenFrame
  | .joining => .joining
  | .rejoined => .joining

/-- ACTIVITY_START (R117): at RESTING a dominant bit begins a frame and stops the access timer. A dominant bit while
RECOVERING delays the rest (R118); the listen count starts again at every dominant bit (R135). -/
def activityStartEffect (s : State) : State :=
  if s.onLine then
    match s.receiver with
    | .resting => { s with receiver := .receiving, accessTimer := none, windowOpen := false, listen := s.listen.map fun _ => 0 }
    | .receiving => { s with listen := s.listen.map fun _ => 0 }
    | .recovering cause _ => { s with receiver := .recovering cause.later 0, listen := s.listen.map fun _ => 0 }
  else s

/-- ACTIVITY_START (R117). -/
def execActivityStart (s : State) : Host.Outcome State Fault Refusal := taken activityStartEffect s

/-- The receiver finds a frame broken, throws it away and waits for rest (R117). The `quiet` recessive bit times already read
count towards the rest (R112, R118) and towards the listen period (R135). -/
def foundBroken (quiet : Nat) (s : State) : State :=
  { s with
    receiver := .recovering .brokenFrame quiet
    accessTimer := none
    windowOpen := false
    listen := s.listen.map fun _ => quiet }

/-- FRAME_FOUND_BROKEN: every finding has the same effect but for the rest that has passed; while RECOVERING the activity
belongs to one broken frame (R117, R118). -/
def foundBrokenEffect (finding : Finding) (s : State) : State :=
  if s.onLine then
    match s.receiver with
    | .recovering _ _ => s
    | _ => foundBroken finding.quiet s
  else s

/-- FRAME_FOUND_BROKEN (R117). -/
def execFrameFoundBroken (finding : Finding) (s : State) : Host.Outcome State Fault Refusal :=
  taken (foundBrokenEffect finding) s

/-- BROKEN_FRAME_END (R118): counted once (R128), view UNKNOWN (R130), and the access timer RUNNING from 10, unless the listen
period runs: then it stays STOPPED and the listen count stands at the 10 bit times of rest (R132, R135). -/
def brokenFrameEndEffect (s : State) : State :=
  if s.onLine && s.transmitter = .idle then
    match s.receiver with
    | .recovering .brokenFrame _ =>
      advance .broken
        { s with
          receiver := .resting
          view := none
          windowOpen := false
          accessTimer := if s.listen.isSome then none else some Config.restBits
          listen := s.listen.map fun _ => Config.restBits }
    | _ => s
  else s

/-- BROKEN_FRAME_END (R118). -/
def execBrokenFrameEnd (s : State) : Host.Outcome State Fault Refusal := taken brokenFrameEndEffect s

/-- RECOVERING_END: the rest after entry to JOINING is complete, with no report and no count (R117). -/
def recoveringEndEffect (s : State) : State :=
  match s.receiver with
  | .recovering .joining _ => { s with receiver := .resting, listen := s.listen.map fun _ => Config.restBits }
  | .recovering .rejoined _ => { s with receiver := .resting, listen := s.listen.map fun _ => Config.restBits }
  | _ => s

/-- RECOVERING_END (R117). -/
def execRecoveringEnd (s : State) : Host.Outcome State Fault Refusal :=
  taken (fun s => if s.onLine then recoveringEndEffect s else s) s

end Sys2Proof.Machine
end

