-- ==== Sys2Proof/Machine/Turns.lean ====
section
/-! DEFINITION. Turns on the line: the start instants (R133 to R141), the end of the listen period (R135), and the three ends of
the station's own transmission: mismatch, abort and completion (R122 to R124, R144). A row of an event that the state
excludes does not take place (notes/assumptions/3.md). -/

namespace Sys2Proof.Machine

/-- The states in which a rotation slot is used (R133, R137). -/
def StationState.usesSlots : StationState → Bool
  | .joining => true
  | .active => true
  | .leaving => true
  | _ => false

/-- ROTATION_SLOT (R137): the RUNNING access timer reaches the station's slot count; in JOINING, ACTIVE and LEAVING the frame
selector acts, in MUTED the slot passes. -/
def rotationSlotEffect (s : State) : State :=
  match s.accessTimer with
  | some _ =>
    let s' := { s with accessTimer := some (s.record.wrapCount s.slotCount), windowOpen := false }
    if s.station.usesSlots && s.transmitter = .idle then selectFrame s' else s'
  | none => s

/-- ROTATION_SLOT (R137). -/
def execRotationSlot (s : State) : Host.Outcome State Fault Refusal := taken rotationSlotEffect s

/-- REPLY_WINDOW (R136): the RUNNING access timer first reaches Q after an addressed FETCH or WRITE; with the station ACTIVE,
the transmit buffer empty and the reply queue not empty, its head is sent. -/
def replyWindowEffect (s : State) : State :=
  if s.windowOpen && s.accessTimer.isSome then
    let s' := { s with accessTimer := some Config.quietGap, windowOpen := false }
    if s.station = .active ∧ s.buffer = none ∧ s.transmitter = .idle then (sendAnswer s').getD s' else s'
  else s

/-- REPLY_WINDOW (R136). -/
def execReplyWindow (s : State) : Host.Outcome State Fault Refusal := taken replyWindowEffect s

/-- LISTEN_PERIOD_END (R135): the listen count reaches its end, the receiver being RESTING by then; the access timer starts at 0
with the view UNKNOWN. -/
def listenPeriodEndEffect (s : State) : State :=
  if s.station = .joining ∧ s.listen.isSome ∧ s.receiver = .resting then
    { s with listen := none, accessTimer := some 0, view := none }
  else s

/-- LISTEN_PERIOD_END (R135). -/
def execListenPeriodEnd (s : State) : Host.Outcome State Fault Refusal := taken listenPeriodEndEffect s

/-- READBACK_MISMATCH: the frame stops and the transmitter enters JAMMING; the frame stays in the buffer (R122). -/
def readbackMismatchEffect (s : State) : State :=
  match s.transmitter with
  | .sending _ => { s with transmitter := .jamming 0 }
  | _ => s

/-- READBACK_MISMATCH (R122). -/
def execReadbackMismatch (s : State) : Host.Outcome State Fault Refusal := taken readbackMismatchEffect s

/-- The transmit buffer after an abort: HELD again, or empty if the discard mark was set (R142, R143). -/
def afterAbort (f : TxFrame) : Option TxFrame := if f.discard then none else some { f with driven := false }

/-- The eighth consecutive abort, by station state (R144). -/
def eighthAbort (s : State) : State :=
  match s.station with
  | .joining => enterMuted .aborts s
  | .active => enterMuted .aborts s
  | .leaving => setFlag .left (enterSetup s)
  | _ => s

/-- ABORT (R122, R144): the jam ends, the transmitter is IDLE, the frame is held or removed, and the abort is counted. The
station's own receiver has found its jam by then and waits for rest, which begins where the jam ends (R118, R122;
notes/assumptions/6.md). -/
def abortEffect (s : State) : State :=
  match s.transmitter with
  | .jamming _ =>
    let s' := { foundBroken 0 s with transmitter := .idle, buffer := s.buffer.bind afterAbort }
    if s.abortCount + 1 < Config.abortLimit then { s' with abortCount := s.abortCount + 1 }
    else eighthAbort { s' with abortCount := 0 }
  | _ => s

/-- ABORT (R122, R144). -/
def execAbort (s : State) : Host.Outcome State Fault Refusal := taken abortEffect s

/-- A request frame has been sent: its entry, still QUEUED and framed, becomes SENT with its reply timer loaded; another entry
of that tag is not changed (R78, R88). -/
def requestSent (t : Tag) (s : State) : State :=
  match s.table[t] with
  | some r =>
    if r.isFramed then
      setEntry t (some { r with phase := .sent (Counter.load Config.ticksPerMs s.record.replyTimeout) }) s
    else s
  | none => s

/-- What the access controller does at a completion, whatever the frame (R124, R130, R132, R147). -/
def frameSent (s : State) : State :=
  { goodEnd (some s.record.own) false s with
    transmitter := .idle
    buffer := none
    abortCount := 0
    presenceMark := false }

/-- The presence timer at a completion: loaded in ACTIVE, left alone elsewhere (R146). -/
def reloadPresence (s : State) : State := if s.station = .active then loadPresenceTimer s else s

/-- The unit that built the frame is told (R124). -/
def completionTold (o : Origin) (s : State) : State :=
  match o with
  | .joinAnnounce => if s.station = .joining then enterActive s else reloadPresence s
  | .leave => if s.station = .leaving then setFlag .left (enterSetup s) else reloadPresence s
  | .request t => requestSent t (reloadPresence s)
  | .responseAnnounce => reloadPresence s
  | .presence => reloadPresence s
  | .answer => reloadPresence s
  | .update _ => reloadPresence s

/-- COMPLETION (R124): a frame the transmitter is SENDING ends without mismatch. -/
def completionEffect (s : State) : State :=
  match s.transmitter, s.buffer with
  | .sending _, some f => completionTold f.origin (frameSent s)
  | _, _ => s

/-- COMPLETION (R124). -/
def execCompletion (s : State) : Host.Outcome State Fault Refusal := taken completionEffect s

end Sys2Proof.Machine
end

