-- ==== Sys2Proof/Machine/Clock.lean ====
section
/-! DEFINITION. What the block does with no command waiting: one bit time passes on a line that no other station drives, and
the rows whose instants fall due in it are put in the queue (R38, R112, R122, R132, R135; notes/assumptions/1.md, 18.md and
19.md). The table has no row for a bit time. -/

namespace Sys2Proof.Machine

/-- REFCLK periods in one bit time (R111). -/
def LineRate.periods : LineRate → Nat
  | .mbit1 => 20
  | .mbit2_5 => 8
  | .mbit5 => 4
  | .mbit10 => 2

/-- The expiry row of a channel, if due. -/
def channelDue (s : State) (c : ChannelNo) : Option Instr :=
  if isDue s.channels[c].run then
    some (if s.channels[c].kind.gathers then .gatherChannelExpiry c else .periodChannelExpiry c)
  else none

/-- The expiry row of a reply timer, if due. -/
def replyDue (s : State) (t : Tag) : Option Instr :=
  match s.table[t] with
  | some r =>
    match r.phase with
    | .sent c => if c.due then some (.replyTimerExpiry t) else none
    | _ => none
  | none => none

/-- The expiry row of an age counter, if due. -/
def ageDue (s : State) (p : PageNo) : Option Instr :=
  match s.variant p with
  | .mirror _ r => if isDue r.age then some (.ageCounterExpiry p) else none
  | _ => none

/-- The expiry row of a silence counter, if due. -/
def silenceDue (s : State) (x : Station) : Option Instr :=
  match s.peers[x].state with
  | .present c => if c.due then some (.silenceCounterExpiry x) else none
  | _ => none

/-- Whether a page's claim would be served (R58). -/
def claimReady (s : State) (p : PageNo) : Bool :=
  match s.variant p with
  | .mirror d r => r.mark = .wanted && s.isPresent d.owner
  | _ => false

/-- The row that ends RECOVERING, if the 10 bit times of rest are complete (R117, R118). At a finding after recessive bits part
of them, or all, have passed. -/
def restDue (s : State) : Option Instr :=
  match s.receiver with
  | .recovering cause rest =>
    if s.onLine && s.transmitter = .idle && decide (Config.restBits ≤ rest) then
      some (match cause with
        | .brokenFrame => .brokenFrameEnd
        | .joining => .recoveringEnd
        | .rejoined => .recoveringEnd)
    else none
  | _ => none

/-- The rows that are due at this instant without any time passing: the end of a rest, expiries that a tick has brought about,
and the refresh claim if a page qualifies. -/
def dueNow (s : State) : List Instr :=
  (restDue s).toList ++ (List.finRange 8).filterMap (channelDue s) ++ (List.finRange 16).filterMap (replyDue s) ++
    (List.finRange 64).filterMap (ageDue s) ++ (List.finRange 32).filterMap (silenceDue s) ++
    (if isDue s.presenceTimer then [.presenceTimerExpiry] else []) ++
    (if s.station = .active ∧ (lowestFree s.table).isSome ∧ (List.finRange 64).any (claimReady s) then [.refreshClaim]
     else [])

/-- The transmitter through one bit time, and the rows this brings (R114, R122): the last bit ends in a completion, the 16th
jam bit in the abort, and a jam longer than 10 bit times is found by the station's own receiver. -/
def transmitterBit (s : State) : Transmitter × List Instr :=
  match s.transmitter with
  | .idle => (.idle, [])
  | .sending bit =>
    match s.buffer with
    | some f => if bit + 1 < f.frame.duration then (.sending (bit + 1), []) else (.sending bit, [.completion])
    | none => (.sending bit, [])
  | .jamming bit =>
    if bit < Config.jamBits then
      (.jamming (bit + 1),
        if bit = Config.longestDominant ∧ s.receiver = .receiving then [.frameFoundBroken .jam] else [])
    else (.jamming bit, [.abort])

/-- The receiver's rest through one recessive bit time (R112); while the station's own jam holds the line it stands. -/
def receiverBit (s : State) : Receiver :=
  match s.receiver with
  | .recovering cause rest => .recovering cause.later (if s.transmitter = .idle then rest + 1 else rest)
  | r => r

/-- The listen count through one recessive bit time (R135). While a frame of another station is being received its bits are not
seen one by one, and the count stands. -/
def listenBit (s : State) : Option Nat × List Instr :=
  match s.listen with
  | some n =>
    if s.receiver = .receiving then (some n, [])
    else (some (n + 1),
      if n + 1 = s.record.listenPeriod ∧ s.receiver = .resting then [.listenPeriodEnd] else [])
  | none => (none, [])

/-- The access timer through one bit time, and the start instants it reaches (R132, R136, R137). -/
def accessBit (s : State) : Option Nat × List Instr :=
  match s.accessTimer with
  | some n =>
    (some (s.record.wrapCount (n + 1)),
      (if n + 1 = Config.quietGap ∧ s.windowOpen then [.replyWindow] else []) ++
        (if n + 1 = s.slotCount then [.rotationSlot] else []))
  | none => (none, [])

/-- One bit time: every bit-counted timer of the station advances, REFCLK counts on, and the rows reached wait in the queue. -/
def bitTime (s : State) : State :=
  let tx := transmitterBit s
  let listen := listenBit s
  let access := accessBit s
  let refclk := s.refclk + s.record.rate.periods
  { s with
    transmitter := tx.1
    receiver := receiverBit s
    listen := listen.1
    accessTimer := access.1
    refclk := refclk
    pending := tx.2 ++ listen.2 ++ access.2 ++ (if Config.refclkPerTick ≤ refclk then [.tick] else []) }

/-- The step on an empty queue (notes/assumptions/1.md). Nothing moves while RESETn is low; what is due is queued before any
time passes; the station's own first bit is its receiver's activity start; else a bit time passes. -/
def idle (s : State) : State :=
  if s.resetHeld then s
  else if ownStart s then { s with pending := [.activityStart] }
  else
    match dueNow s with
    | [] => bitTime s
    | c :: cs => { s with pending := c :: cs }

end Sys2Proof.Machine
end

