-- ==== Sys2Proof/Machine/HostConfig.lean ====
section
/-! DEFINITION. The configuration commands of the host port: SET_STATION, SET_PAGE, SET_CHANNEL and SET_MASK (R175 to R177,
R185). A command taken in SETUP alone is refused with WRONG_STATE elsewhere, before its arguments are examined (R174). -/

namespace Sys2Proof.Machine

/-- A command that Table 10.1 takes in SETUP alone (R174 step 2). -/
def inSetup (f : State → State) (s : State) : State :=
  if s.station = .setup then f s else respond .wrongState [] s

/-- SET_STATION in SETUP: all six fields together, or BAD_ARGUMENT (R175). -/
def setStationEffect (own ring rate silence timeout retry : Byte) (s : State) : State :=
  match stationRecordOf own ring rate silence timeout retry with
  | some r => respond .ok [] { s with record := r }
  | none => respond .badArgument [] s

/-- SET_STATION (R175). -/
def execSetStation (own ring rate silence timeout retry : Byte) (s : State) : Host.Outcome State Fault Refusal :=
  taken (inSetup (setStationEffect own ring rate silence timeout retry)) s

/-- SET_PAGE in SETUP: the descriptor replaced whole with the starting run-state of its variant; page memory and the
DISPUTED flag, clear in SETUP, are left (R6, R2). The page is not in the publish queue, which is empty outside ACTIVE
(R23), so its queued mark is clear. -/
def setPageEffect (page : Byte) (args : PageArgs) (s : State) : State :=
  match pageOf page, variantOf args with
  | some p, some v => respond .ok [] (setVariant p v s)
  | _, _ => respond .badArgument [] s

/-- SET_PAGE (R6, R176). -/
def execSetPage (page : Byte) (args : PageArgs) (s : State) : Host.Outcome State Fault Refusal :=
  taken (inSetup (setPageEffect page args)) s

/-- SET_CHANNEL in SETUP: kind, prescale and count replaced; the channel is IDLE (R41). -/
def setChannelEffect (channel kind prescale countLess : Byte) (s : State) : State :=
  match channelOf channel, channelConfigOf kind prescale countLess with
  | some c, some config => respond .ok [] { s with channels := s.channels.set c config }
  | _, _ => respond .badArgument [] s

/-- SET_CHANNEL (R41, R177). -/
def execSetChannel (channel kind prescale countLess : Byte) (s : State) : Host.Outcome State Fault Refusal :=
  taken (inSetup (setChannelEffect channel kind prescale countLess)) s

/-- SET_MASK replaces the whole mask in any state (R185). -/
def setMaskEffect (flags second : Byte) (s : State) : State :=
  respond .ok [] { s with mask := flags, notifyEnable := second.getLsbD 0 }

/-- SET_MASK (R185). -/
def execSetMask (flags second : Byte) (s : State) : Host.Outcome State Fault Refusal :=
  taken (setMaskEffect flags second) s

end Sys2Proof.Machine
end

