-- ==== Sys2Proof/Machine/HostData.lean ====
section
/-! DEFINITION. The data commands of the host port: READ, WRITE, COLLECT and FLUSH (R11 to R17, R26, R86). -/

namespace Sys2Proof.Machine

/-- A host claim on the request table, with the tests of R12 and R15 in their order: station ACTIVE, owner PRESENT, an entry
FREE. -/
def hostClaim (kind : RequestKind) (owner : Station) (a : Access) (s : State) : State :=
  if s.station ≠ .active then respond .wrongState [] s
  else if s.isPresent owner = false then respond .ownerLost [] s
  else
    match lowestFree s.table with
    | some t => respond .queued [byteOf t.val] (allocate t kind owner a.page a.offset a.count s)
    | none => respond .full [] s

/-- READ of a page that passes R11 (R12). -/
def readRoute (a : Access) (s : State) : State :=
  if s.disputed a.page then respond .disputed [] s
  else
    match s.variant a.page with
    | .none => respond .unmapped [] s
    | .own _ _ => respond .ok (0 :: wordsBytes (s.words a.page a.offset a.count)) s
    | .mirror _ r =>
      if r.state = .empty then respond .empty [] s
      else respond .ok (r.state.code :: wordsBytes (s.words a.page a.offset a.count)) s
    | .fetch d => hostClaim .read d.owner a s

/-- READ: the argument check, then the route (R11, R12). -/
def readEffect (page offset count : Byte) (s : State) : State :=
  match accessOf page offset count with
  | some a => readRoute a s
  | none => respond .badArgument [] s

/-- READ (R12, R178). -/
def execRead (page offset count : Byte) (s : State) : Host.Outcome State Fault Refusal :=
  taken (readEffect page offset count) s

/-- WRITE of a page that passes R11 (R15). -/
def writeRoute (a : Access) (ws : List Word) (s : State) : State :=
  if s.disputed a.page then respond .disputed [] s
  else
    match s.variant a.page with
    | .none => respond .unmapped [] s
    | .own _ _ => respond .ok [] (storeWrite a.page a.offset ws s)
    | .mirror d _ =>
      if d.writeRoute = .deny then respond .denied [] s else hostClaim (.write ws) d.owner a s
    | .fetch d =>
      if d.writeRoute = .deny then respond .denied [] s else hostClaim (.write ws) d.owner a s

/-- WRITE: the transaction is discarded if it ends before its last word byte; bytes after that are ignored (R11, R171,
R172). Then the argument check and the route (R11, R15). -/
def writeEffect (page offset count : Byte) (words : List Word) (s : State) : State :=
  if words.length < writeWordCount count then s
  else
    match accessOf page offset count with
    | some a => writeRoute a (words.take a.count) s
    | none => respond .badArgument [] s

/-- WRITE (R15, R178). -/
def execWrite (page offset count : Byte) (words : List Word) (s : State) : Host.Outcome State Fault Refusal :=
  taken (writeEffect page offset count words) s

/-- The result bytes of a COLLECT answered OK: kind, attempt, outcome, and for a READ answered DONE the owner version, the
count and the words (R179). -/
def collectResult (r : Request) (outcome : Byte) (data : Option (Byte × List Word)) : List Byte :=
  [r.kind.code, byteOf r.attempt, outcome] ++
    match data with
    | some (version, ws) => version :: byteOf ws.length :: wordsBytes ws
    | none => []

/-- COLLECT of an entry that is no REFRESH (R86). -/
def collectEntry (t : Tag) (r : Request) (s : State) : State :=
  match r.phase with
  | .queued _ => respond .pending [r.kind.code, 1, byteOf r.attempt] s
  | .sent _ => respond .pending [r.kind.code, 2, byteOf r.attempt] s
  | .done status data => respond .ok (collectResult r (remoteCode status) data) (setEntry t none s)
  | .failed reason => respond .ok (collectResult r reason.code none) (setEntry t none s)

/-- COLLECT (R86): an entry reported DONE or FAILED becomes FREE. -/
def collectEffect (tag : Byte) (s : State) : State :=
  match tagOf tag with
  | none => respond .badArgument [] s
  | some t =>
    match s.table[t] with
    | none => respond .noRequest [] s
    | some r => if r.isRefresh then respond .noRequest [] s else collectEntry t r s

/-- COLLECT (R86, R179). -/
def execCollect (tag : Byte) (s : State) : Host.Outcome State Fault Refusal := taken (collectEffect tag) s

/-- FLUSH of a page (R26), after the test of the station state. -/
def flushPage (p : PageNo) (s : State) : State :=
  match s.variant p with
  | .own d r =>
    if d.policy = .quiet then respond .badArgument [] s
    else if s.disputed p then respond .disputed [] s
    else if r.span.isNone then respond .empty [] s
    else respond .ok [] (enqueue .span p s)
  | _ => respond .badArgument [] s

/-- FLUSH: the first row of R26 that applies. -/
def flushEffect (page : Byte) (s : State) : State :=
  if s.station ≠ .active then respond .wrongState [] s
  else
    match pageOf page with
    | some p => flushPage p s
    | none => respond .badArgument [] s

/-- FLUSH (R26, R179). -/
def execFlush (page : Byte) (s : State) : Host.Outcome State Fault Refusal := taken (flushEffect page) s

end Sys2Proof.Machine
end

