-- ==== Sys2Proof/Machine/HostLifecycle.lean ====
section
/-! DEFINITION. The lifecycle commands of the host port: JOIN, LEAVE, REJOIN and SOFT_RESET (R153, R158, R159, R162), and the
two edges of RESETn (R163, R38). -/

namespace Sys2Proof.Machine

/-- JOIN (R153): in SETUP the checks of R18, then entry to JOINING. -/
def joinEffect (s : State) : State :=
  if s.station = .setup then
    match joinError s with
    | some e => respond .badArgument [] (setFlag .configError { s with configError := e })
    | none => respond .ok [] (enterJoining .joining { s with configError := .none })
  else respond .wrongState [] s

/-- JOIN (R153). -/
def execJoin (s : State) : Host.Outcome State Fault Refusal := taken joinEffect s

/-- LEAVE (R159): from ACTIVE to LEAVING, from MUTED straight to SETUP with LEFT set. -/
def leaveEffect (s : State) : State :=
  match s.station with
  | .active => respond .ok [] (enterLeaving s)
  | .muted => respond .ok [] (setFlag .left (enterSetup s))
  | _ => respond .wrongState [] s

/-- LEAVE (R159). -/
def execLeave (s : State) : Host.Outcome State Fault Refusal := taken leaveEffect s

/-- REJOIN (R158): from MUTED to JOINING. A duplicate-station frame taken next finds the station JOINING
(notes/assumptions/33.md). -/
def rejoinEffect (s : State) : State :=
  match s.station with
  | .muted => respond .ok [] (enterJoining .rejoined s)
  | _ => respond .wrongState [] s

/-- REJOIN (R158). -/
def execRejoin (s : State) : Host.Outcome State Fault Refusal := taken rejoinEffect s

/-- What soft reset adds to entry to SETUP: request table, flags, counters, error and reason (R162, R93, R129, R150). -/
def softResetEffect (s : State) : State :=
  respond .ok []
    { enterSetup s with
      table := Vector.replicate 16 none
      issues := Vector.replicate 16 0
      sendOrder := []
      flags := 0
      counters := LineCounters.zero
      configError := .none
      mutedReason := .none }

/-- SOFT_RESET (R162). -/
def execSoftReset (s : State) : Host.Outcome State Fault Refusal := taken softResetEffect s

/-- HARDWARE_RESET: every value as hardware reset leaves it, with RESETn low. The commands still waiting are no state of the
station and stay in the queue (R163; notes/assumptions/21.md). -/
def execHardwareReset (s : State) : Host.Outcome State Fault Refusal :=
  .next { State.reset with pending := s.pending, resetHeld := true }

/-- RESET_RELEASE: RESETn rises; the station is in SETUP and the tick generator starts its count (R163, R38). With RESETn
high already there is no edge. -/
def execResetRelease (s : State) : Host.Outcome State Fault Refusal :=
  .next (if s.resetHeld then { s with resetHeld := false, refclk := 0 } else s)

end Sys2Proof.Machine
end

