-- ==== Sys2Proof/Machine/HostReport.lean ====
section
/-! DEFINITION. The commands that read the station: STATUS, PEER, PAGE_STATE, CHANNEL_STATE, POP_NOTIFY and CLEAR_EVENTS
(R180 to R182, R184, R188), and the two transactions that have no effect (R172, R173). -/

namespace Sys2Proof.Machine

/-- The 12 counter bytes of STATUS (Table 10.4). -/
def LineCounters.bytes (c : LineCounters) : List Byte :=
  wordsBytes [c.broken, c.malformed, c.oldUpdates, c.lateReplies, c.overruns, c.notifyLost]

/-- The 22 result bytes of STATUS (Table 10.4). -/
def statusBytes (s : State) : List Byte :=
  [s.station.code, s.configError.code, s.mutedReason.code, s.flags, s.mask, boolByte s.notifyEnable,
   byteOf s.abortCount, byteOf (freeEntries s.table), byteOf s.publishQueue.length, byteOf s.notify.length] ++
    s.counters.bytes

/-- STATUS reports all six counters and sets them to 0 in one change (R180, R129). -/
def statusEffect (s : State) : State :=
  respond .ok (statusBytes s) { s with counters := LineCounters.zero }

/-- STATUS (R180). -/
def execStatus (s : State) : Host.Outcome State Fault Refusal := taken statusEffect s

/-- The 12 result bytes of PEER (R182). -/
def peerBytes (r : PeerRecord) : List Byte :=
  let head : List Byte :=
    match r.state with
    | .absent => [0, 0]
    | .present c => [1, byteOf c.main]
    | .silent => [2, 0]
  head ++
    match r.announced with
    | some (owned, limit) => [1, limit] ++ pageSetBytes owned
    | none => [0, 0] ++ pageSetBytes 0

/-- PEER changes nothing (R164). -/
def peerEffect (station : Byte) (s : State) : State :=
  match stationOf station with
  | some x => respond .ok (peerBytes s.peers[x]) s
  | none => respond .badArgument [] s

/-- PEER (R164, R182). -/
def execPeer (station : Byte) (s : State) : Host.Outcome State Fault Refusal := taken (peerEffect station) s

/-- The 8 result bytes of PAGE_STATE (R181). -/
def pageStateBytes (s : State) (p : PageNo) : List Byte :=
  let disputed := boolByte (s.disputed p)
  match s.variant p with
  | .none => [Config.ownerNone, disputed, 0, 0, 0, 0, 0, 0]
  | .own _ r =>
    let queued := queuedCode (queuedMark s.publishQueue p)
    match r.span with
    | some sp => [Config.ownerSelf, disputed, r.version, 1, byteOf sp.low, byteOf sp.high, queued, 0]
    | none => [Config.ownerSelf, disputed, r.version, 0, 0, 0, queued, 0]
  | .mirror d r =>
    let age : Byte :=
      match r.age with
      | some c => byteOf c.main
      | none => 0
    match r.last with
    | some v => [stationByte d.owner, disputed, r.state.code, 1, v, age, r.mark.code, 0]
    | none => [stationByte d.owner, disputed, r.state.code, 0, 0, age, r.mark.code, 0]
  | .fetch d => [stationByte d.owner, disputed, 0, 0, 0, 0, 0, 1]

/-- PAGE_STATE changes nothing (R8). -/
def pageStateEffect (page : Byte) (s : State) : State :=
  match pageOf page with
  | some p => respond .ok (pageStateBytes s p) s
  | none => respond .badArgument [] s

/-- PAGE_STATE (R8, R181). -/
def execPageState (page : Byte) (s : State) : Host.Outcome State Fault Refusal := taken (pageStateEffect page) s

/-- The 6 result bytes of CHANNEL_STATE (R182). -/
def channelBytes (c : Channel) : List Byte :=
  [c.kind.code, byteOf c.prescale, byteOf (c.count - 1)] ++
    match c.run with
    | some k => [1, byteOf k.pre, byteOf (k.main - 1)]
    | none => [0, 0, 0]

/-- CHANNEL_STATE changes nothing (R50). -/
def channelStateEffect (channel : Byte) (s : State) : State :=
  match channelOf channel with
  | some c => respond .ok (channelBytes s.channels[c]) s
  | none => respond .badArgument [] s

/-- CHANNEL_STATE (R50, R182). -/
def execChannelState (channel : Byte) (s : State) : Host.Outcome State Fault Refusal :=
  taken (channelStateEffect channel) s

/-- POP_NOTIFY removes and returns the head, or answers EMPTY (R188). -/
def popNotifyEffect (s : State) : State :=
  match s.notify with
  | p :: rest => respond .ok [byteOf p.val] { s with notify := rest }
  | [] => respond .empty [] s

/-- POP_NOTIFY (R188). -/
def execPopNotify (s : State) : Host.Outcome State Fault Refusal := taken popNotifyEffect s

/-- CLEAR_EVENTS reports the flags as they stood and clears those named (R184). -/
def clearEventsEffect (named : Byte) (s : State) : State := respond .ok [s.flags] (clearFlags named s)

/-- CLEAR_EVENTS (R184). -/
def execClearEvents (named : Byte) (s : State) : Host.Outcome State Fault Refusal := taken (clearEventsEffect named) s

/-- A command byte that is no code: answered UNKNOWN_COMMAND with no effect (R173). -/
def unknownCommandEffect (_code : Byte) (s : State) : State := respond .unknownCommand [] s

/-- UNKNOWN_COMMAND (R173). -/
def execUnknownCommand (code : Byte) (s : State) : Host.Outcome State Fault Refusal :=
  taken (unknownCommandEffect code) s

/-- TRANSACTION_DISCARDED leaves the station as it was (R172). -/
def execTransactionDiscarded (_transaction : Transaction) (s : State) : Host.Outcome State Fault Refusal := .next s

end Sys2Proof.Machine
end

