-- ==== Sys2Proof/Machine/Dispatch.lean ====
section
/-! DEFINITION. The meaning of every row of spec/opcode_table.json, one arm per constructor of Instr. -/

namespace Sys2Proof.Machine

def exec (i : Instr) (s : State) : Host.Outcome State Fault Refusal :=
  match i with
  | .setStation own ring rate silence timeout retry => Sys2Proof.Machine.execSetStation own ring rate silence timeout retry s
  | .setPage page args => Sys2Proof.Machine.execSetPage page args s
  | .setChannel channel kind prescale countLess => Sys2Proof.Machine.execSetChannel channel kind prescale countLess s
  | .setMask flags second => Sys2Proof.Machine.execSetMask flags second s
  | .join => Sys2Proof.Machine.execJoin s
  | .leave => Sys2Proof.Machine.execLeave s
  | .rejoin => Sys2Proof.Machine.execRejoin s
  | .softReset => Sys2Proof.Machine.execSoftReset s
  | .read page offset count => Sys2Proof.Machine.execRead page offset count s
  | .write page offset count words => Sys2Proof.Machine.execWrite page offset count words s
  | .collect tag => Sys2Proof.Machine.execCollect tag s
  | .flush page => Sys2Proof.Machine.execFlush page s
  | .status => Sys2Proof.Machine.execStatus s
  | .peer station => Sys2Proof.Machine.execPeer station s
  | .pageState page => Sys2Proof.Machine.execPageState page s
  | .channelState channel => Sys2Proof.Machine.execChannelState channel s
  | .popNotify => Sys2Proof.Machine.execPopNotify s
  | .clearEvents named => Sys2Proof.Machine.execClearEvents named s
  | .unknownCommand code => Sys2Proof.Machine.execUnknownCommand code s
  | .transactionDiscarded transaction => Sys2Proof.Machine.execTransactionDiscarded transaction s
  | .hardwareReset => Sys2Proof.Machine.execHardwareReset s
  | .resetRelease => Sys2Proof.Machine.execResetRelease s
  | .tick => Sys2Proof.Machine.execTick s
  | .gatherChannelExpiry channel => Sys2Proof.Machine.execGatherChannelExpiry channel s
  | .periodChannelExpiry channel => Sys2Proof.Machine.execPeriodChannelExpiry channel s
  | .replyTimerExpiry tag => Sys2Proof.Machine.execReplyTimerExpiry tag s
  | .ageCounterExpiry page => Sys2Proof.Machine.execAgeCounterExpiry page s
  | .silenceCounterExpiry station => Sys2Proof.Machine.execSilenceCounterExpiry station s
  | .presenceTimerExpiry => Sys2Proof.Machine.execPresenceTimerExpiry s
  | .activityStart => Sys2Proof.Machine.execActivityStart s
  | .updateFrame sender page version first words => Sys2Proof.Machine.execUpdateFrame sender page version first words s
  | .fetchFrame sender page offset count tag issue attempt => Sys2Proof.Machine.execFetchFrame sender page offset count tag issue attempt s
  | .writeFrame sender page offset tag issue attempt words => Sys2Proof.Machine.execWriteFrame sender page offset tag issue attempt words s
  | .replyFrame sender tag issue attempt status page version count words => Sys2Proof.Machine.execReplyFrame sender tag issue attempt status page version count words s
  | .ackFrame sender tag issue attempt status => Sys2Proof.Machine.execAckFrame sender tag issue attempt status s
  | .announceFrame sender joinFlag ring silence owned => Sys2Proof.Machine.execAnnounceFrame sender joinFlag ring silence owned s
  | .presenceFrame sender => Sys2Proof.Machine.execPresenceFrame sender s
  | .leaveFrame sender => Sys2Proof.Machine.execLeaveFrame sender s
  | .duplicateStationFrame => Sys2Proof.Machine.execDuplicateStationFrame s
  | .malformedFrame sender => Sys2Proof.Machine.execMalformedFrame sender s
  | .brokenFrameEnd => Sys2Proof.Machine.execBrokenFrameEnd s
  | .recoveringEnd => Sys2Proof.Machine.execRecoveringEnd s
  | .listenPeriodEnd => Sys2Proof.Machine.execListenPeriodEnd s
  | .replyWindow => Sys2Proof.Machine.execReplyWindow s
  | .rotationSlot => Sys2Proof.Machine.execRotationSlot s
  | .readbackMismatch => Sys2Proof.Machine.execReadbackMismatch s
  | .abort => Sys2Proof.Machine.execAbort s
  | .completion => Sys2Proof.Machine.execCompletion s
  | .refreshClaim => Sys2Proof.Machine.execRefreshClaim s
  | .otherTargetFrame sender => Sys2Proof.Machine.execOtherTargetFrame sender s
  | .frameFoundBroken finding => Sys2Proof.Machine.execFrameFoundBroken finding s

end Sys2Proof.Machine
end

