-- ==== Sys2Proof/Safety.lean ====
section
/-! DEFINITION. What a sound state of the station is: the statements that the rules make about the whole machine at rest
between two commands, unit by unit. Each is decidable; each holds at reset and is kept by every step
(Sys2Proof/Certificates/Slice0/Obligations.lean states that). -/

namespace Sys2Proof.Machine

/-- The counts of a running counter lie between 1 and prescale, and 1 and count (R42). -/
def counterWithin (prescale count : Nat) : Option Counter → Bool
  | some c => decide (1 ≤ c.pre ∧ c.pre ≤ prescale ∧ 1 ≤ c.main ∧ c.main ≤ count)
  | none => true

/-- The values of the station record lie in their ranges (R151, R74, R175). -/
def StationRecord.inRange (r : StationRecord) : Bool :=
  decide (2 ≤ r.ring ∧ r.ring ≤ 32 ∧ 2 ≤ r.silence ∧ r.silence ≤ 255 ∧ 1 ≤ r.replyTimeout ∧ r.replyTimeout ≤ 255 ∧
    r.retryLimit ≤ 7)

/-- A mirror has a last version exactly when it is not EMPTY; an EMPTY mirror has its refresh mark NONE; the age counter is
stopped while EMPTY or STALE, never runs with age limit 0, and lies within the limit (R51, R63). -/
def PageVariant.mirrorOk : PageVariant → Bool
  | .mirror d r =>
    decide ((r.state = .empty ↔ r.last = .none) ∧ (r.state = .empty → r.mark = .none) ∧
      (r.state = .empty ∨ r.state = .stale → r.age = .none) ∧ (d.ageLimit = 0 → r.age = .none)) &&
      counterWithin Config.ticksPerAge d.ageLimit r.age
  | _ => true

/-- A dirty span is low..high with high at most 63, and a QUIET page has none (R20). -/
def PageVariant.spanOk : PageVariant → Bool
  | .own d r =>
    match r.span with
    | some sp => decide (sp.low ≤ sp.high ∧ sp.high < Config.pageWords ∧ d.policy ≠ .quiet)
    | .none => true
  | _ => true

/-- Page memory is in its canonical form (R1). -/
abbrev MemorySound (s : State) : Prop := memoryWf s.memory = true

/-- Every mirror record is sound (R51, R63). -/
abbrev MirrorsSound (s : State) : Prop := ∀ p : PageNo, (s.variant p).mirrorOk = true

/-- Every dirty span is sound (R20). -/
abbrev SpansSound (s : State) : Prop := ∀ p : PageNo, (s.variant p).spanOk = true

/-- The publish queue holds no page twice, only eligible pages, a page with extent SPAN only while it has a span, and nothing
unless the station is ACTIVE (R23). -/
abbrev PublishQueueSound (s : State) : Prop :=
  (s.publishQueue.map Prod.fst).Nodup ∧
    (∀ e ∈ s.publishQueue, s.eligible e.1 = true ∧ (e.2 = .span → (s.variant e.1).hasSpan = true)) ∧
    (s.station ≠ .active → s.publishQueue = [])

/-- The notify queue holds at most 16 pages, none twice, and nothing in SETUP (R187). -/
abbrev NotifyQueueSound (s : State) : Prop :=
  s.notify.length ≤ Config.notifyQueueSize ∧ s.notify.Nodup ∧ (s.station = .setup → s.notify = [])

/-- The reply queue holds at most 8 answers, and none unless the station is ACTIVE; the write filter holds at most 8 records, no
two with one key, and none in SETUP (R96, R98, R105, R107). -/
abbrev ServiceSound (s : State) : Prop :=
  s.replyQueue.length ≤ Config.replyQueueSize ∧ (s.station ≠ .active → s.replyQueue = []) ∧
    s.filter.length ≤ Config.filterSize ∧ (s.filter.map fun f => (f.writer, f.tag, f.issue)).Nodup ∧
    (s.station = .setup → s.filter = [])

/-- A channel's configuration and counts lie in their ranges (R40, R42). -/
def Channel.inRange (c : Channel) : Bool :=
  decide (1 ≤ c.prescale ∧ c.prescale ≤ 64 ∧ 1 ≤ c.count ∧ c.count ≤ 256) && counterWithin c.prescale c.count c.run

/-- Every channel is IDLE outside ACTIVE, every PERIOD channel COUNTING in ACTIVE, and every count in its range (R43, R42). -/
abbrev ChannelsSound (s : State) : Prop :=
  ∀ c : ChannelNo, s.channels[c].inRange = true ∧ (s.station ≠ .active → s.channels[c].run = none) ∧
    (s.station = .active → s.channels[c].kind = .period → s.channels[c].run.isSome = true)

/-- A peer record is sound: nothing recorded while ABSENT, and a silence counter within the station's limit (R164). -/
def PeerRecord.sound (limit : Nat) (r : PeerRecord) : Bool :=
  match r.state with
  | .absent => r.announced.isNone
  | .present c => counterWithin Config.ticksPerAge limit (some c)
  | .silent => true

/-- Every peer record is sound, the own number's record is ABSENT, and in SETUP every record is ABSENT (R164, R152). -/
abbrev PeersSound (s : State) : Prop :=
  (∀ x : Station, s.peers[x].sound s.record.silence = true) ∧ s.peers[s.record.own].state = .absent ∧
    (s.station = .setup → ∀ x : Station, s.peers[x].state = .absent)

/-- No page is DISPUTED in SETUP, and a NONE page never is (R9, R3). -/
abbrev DisputesSound (s : State) : Prop :=
  (s.station = .setup → ∀ p : PageNo, s.disputed p = false) ∧
    ∀ p : PageNo, s.variant p = .none → s.disputed p = false

/-- The station holds a frame only in JOINING, ACTIVE and LEAVING; a frame is DRIVEN exactly while the transmitter is at work;
a HELD frame has no discard mark; the abort count is at most 7 (R142, R143, R144). -/
abbrev TransmitSound (s : State) : Prop :=
  (s.station.usesSlots = false → s.buffer = none) ∧
    ((s.transmitter ≠ .idle) ↔ (s.buffer.any fun f => f.driven) = true) ∧
    (∀ f ∈ s.buffer, f.discard = true → f.driven = true) ∧ s.abortCount < Config.abortLimit

/-- An entry is QUEUED and not framed (R76). -/
def Request.waits (r : Request) : Bool :=
  match r.phase with
  | .queued framed => !framed
  | _ => false

/-- An entry's fields are sound: attempt within the retry limit while open, a REFRESH only while open and with 64 words at
offset 0, a reply timer within the timeout (R71, R83, R84). -/
def Request.sound (record : StationRecord) (r : Request) : Bool :=
  decide (r.isOpen = true → r.attempt ≤ record.retryLimit) &&
    decide (r.isRefresh = true → r.isOpen = true ∧ r.offset = 0 ∧ r.count = Config.pageWords) &&
    match r.phase with
    | .sent c => counterWithin Config.ticksPerMs record.replyTimeout (some c)
    | _ => true

/-- The send order holds each QUEUED entry that is not framed, once; entries are open only in ACTIVE; a framed entry is the
origin of the frame in the transmit buffer; entries are sound (R71, R72, R76, R77). -/
abbrev RequestsSound (s : State) : Prop :=
  s.sendOrder.Nodup ∧ (∀ t : Tag, t ∈ s.sendOrder ↔ (s.table[t].any fun r => r.waits) = true) ∧
    (∀ t : Tag, ∀ r ∈ s.table[t], r.sound s.record = true ∧ (r.isOpen = true → s.station = .active) ∧
      (r.isFramed = true → ∃ f ∈ s.buffer, f.origin = .request t ∧ f.discard = false))

/-- The pages that a REFRESH entry of the table belongs to. -/
def State.refreshOf (s : State) (t : Tag) : Option PageNo :=
  s.table[t].bind fun r => if r.isRefresh then some r.page else none

/-- A PENDING mark has exactly one REFRESH entry behind it, to the page's owner, and a page with another mark has none (R57,
R72). -/
abbrev RefreshesSound (s : State) : Prop :=
  (∀ p : PageNo, (s.variant p).mark = .pending ↔ ∃ t : Tag, s.refreshOf t = some p) ∧
    (∀ t u : Tag, s.refreshOf t ≠ none → s.refreshOf t = s.refreshOf u → t = u) ∧
    ∀ t : Tag, ∀ r ∈ s.table[t], r.isRefresh = true → (s.variant r.page).peerOwner = some r.owner

/-- A mirror record stands at its starting values; other pages have none (R52). -/
def PageVariant.mirrorAtStart : PageVariant → Bool
  | .mirror _ r => r == MirrorRun.start
  | _ => true

/-- In SETUP the access controller and the line interface are at rest: transmitter IDLE, view UNKNOWN, access timer STOPPED, no
listen period, transmit buffer empty, abort count 0, presence timer STOPPED, marks clear; and every mirror is EMPTY with its
age counter stopped (R148, R152). -/
abbrev SetupQuiet (s : State) : Prop :=
  s.station = .setup → s.transmitter = .idle ∧ s.view = none ∧ s.accessTimer = none ∧ s.listen = none ∧ s.buffer = none ∧
    s.abortCount = 0 ∧ s.presenceTimer = none ∧ s.presenceMark = false ∧ s.responseMark = false ∧
    ∀ p : PageNo, (s.variant p).mirrorAtStart = true

/-- The presence timer and the two marks stand outside ACTIVE as R148 gives: timer STOPPED, marks clear. -/
abbrev PresenceSound (s : State) : Prop :=
  s.station ≠ .active → s.presenceTimer = none ∧ s.presenceMark = false ∧ s.responseMark = false

/-! ### Changes that several rules name

Each relation says what stands in `t` after a change of `s`, and closes with the frame: every field it does not name is the
one of `s`. The obligations state what the commands do in these terms. -/

/-- Station `x` is PRESENT in the peer table (R164). -/
abbrev Present (s : State) (x : Station) : Prop := ∃ k, s.peers[x].state = .present k

/-- Entry to JOINING (R154): mirrors at their starting values, every peer ABSENT with nothing recorded, write filter empty,
receiver waiting for rest for the cause given, access controller as R148 gives with the listen period begun. The rest count of 0
at an entry by REJOIN, and its cause, are the model's (notes/assumptions/31.md and 33.md). -/
def EntersJoining (cause : RecoveryCause) (s t : State) : Prop :=
  (∀ p : PageNo, t.disputed p = s.disputed p ∧
    t.variant p =
      match s.variant p with
      | .mirror d _ => .mirror d { state := .empty, last := none, age := none, mark := .none }
      | v => v) ∧
  (∀ x : Station, t.peers[x] = { state := .absent, announced := none }) ∧
  t = { s with
        station := .joining, pages := t.pages, peers := t.peers, filter := [], receiver := .recovering cause 0,
        view := none, accessTimer := none, listen := some 0, windowOpen := false, buffer := none, abortCount := 0,
        presenceTimer := none, presenceMark := false, responseMark := false }

/-- What entry to SETUP has in common, whatever the way in (R161): off the line, access controller at rest, mirrors, peers,
disputes, versions, spans, queues and filter cleared, channels IDLE. -/
def EntersSetup (s t : State) : Prop :=
  (∀ p : PageNo, t.disputed p = false ∧
    t.variant p =
      match s.variant p with
      | .own d _ => .own d { version := 0, span := none }
      | .mirror d _ => .mirror d { state := .empty, last := none, age := none, mark := .none }
      | v => v) ∧
  (∀ x : Station, t.peers[x] = { state := .absent, announced := none }) ∧
  (∀ c : ChannelNo, t.channels[c] = { s.channels[c] with run := none }) ∧
  t = { s with
        station := .setup, pages := t.pages, peers := t.peers, channels := t.channels, transmitter := .idle,
        receiver := .resting, buffer := none, view := none, accessTimer := none, listen := none, windowOpen := false,
        abortCount := 0, presenceTimer := none, presenceMark := false, responseMark := false, publishQueue := [],
        replyQueue := [], filter := [], notify := [] }

/-- Requests ended from outside (R88, R89, R91, R92): each QUEUED or SENT entry that `sel` chooses fails with the reason, or
becomes FREE if it is a REFRESH; its tag leaves the send order; REQUEST_DONE is set if a READ or WRITE failed; its frame in
the transmit buffer is removed, or marked if it is being driven. -/
def EndsRequests (sel : Request → Bool) (why : LocalReason) (s t : State) : Prop :=
  (∀ u : Tag, t.table[u] =
    match s.table[u] with
    | some r =>
      if r.isOpen && sel r then (if r.isRefresh then none else some { r with phase := .failed why }) else some r
    | none => none) ∧
  t.sendOrder = s.sendOrder.filter (fun u => !(s.table[u].any fun r => r.isOpen && sel r)) ∧
  t.flags =
    (if ∃ u : Tag, (s.table[u].any fun r => r.isOpen && sel r && !r.isRefresh) = true then s.flags ||| 0x40#8
     else s.flags) ∧
  t.buffer =
    s.buffer.bind fun f =>
      match f.origin with
      | .request u =>
        if s.table[u].any fun r => r.isOpen && sel r && r.isFramed then
          (if f.driven then some { f with discard := true } else none)
        else some f
      | _ => some f

/-- A change that leaves every field but those of the request unit, the transmit buffer, the event flags and the pages. -/
abbrev RequestsAndPagesOnly (s t : State) : Prop :=
  t = { s with table := t.table, sendOrder := t.sendOrder, flags := t.flags, buffer := t.buffer, pages := t.pages }

/-- PENDING refresh marks return to NONE and nothing else of any page changes (R61). -/
def DropsPending (s t : State) : Prop :=
  ∀ p : PageNo, t.disputed p = s.disputed p ∧
    t.variant p =
      match s.variant p with
      | .mirror d r => .mirror d { r with mark := if r.mark = .pending then .none else r.mark }
      | v => v

/-- Leaving ACTIVE for MUTED or LEAVING: requests ended, PENDING marks dropped, publish and reply queues emptied, channels
IDLE, marks clear and presence timer STOPPED (R34, R48, R61, R91, R92, R98, R147). -/
def DropsWork (why : LocalReason) (s t : State) : Prop :=
  EndsRequests (fun _ => true) why s t ∧ DropsPending s t ∧
  (∀ c : ChannelNo, t.channels[c] = { s.channels[c] with run := none }) ∧
  t = { s with
        table := t.table, sendOrder := t.sendOrder, flags := t.flags, buffer := t.buffer, pages := t.pages,
        channels := t.channels, publishQueue := [], replyQueue := [], presenceTimer := none, presenceMark := false,
        responseMark := false }

/-- Entry to MUTED (R157): work dropped with reason MUTED, the transmit buffer emptied, the abort count 0, a listen period
abandoned, MUTED set. -/
def EntersMuted (why : MutedReason) (s t : State) : Prop :=
  ∃ u, DropsWork .muted s u ∧
    t = { u with
          station := .muted, mutedReason := why, flags := u.flags ||| 0x02#8, buffer := none, abortCount := 0,
          listen := none }

/-- The owner-lost actions for `x` (R65, R89): mirrors of `x` that are FRESH or GAPPED become STALE with the age counter
stopped, refresh marks of its pages return to NONE, and its requests end with OWNER_LOST. -/
def LosesOwner (x : Station) (s t : State) : Prop :=
  EndsRequests (fun r => r.owner = x) .ownerLost s t ∧
  (∀ p : PageNo, t.disputed p = s.disputed p ∧
    t.variant p =
      match s.variant p with
      | .mirror d r =>
        if d.owner = x then
          .mirror d { state := if r.state = .fresh ∨ r.state = .gapped then .stale else r.state
                      last := r.last
                      age := if r.state = .fresh ∨ r.state = .gapped then none else r.age
                      mark := .none }
        else .mirror d r
      | v => v) ∧
  RequestsAndPagesOnly s t

/-- The publish queue after every page that `sel` chooses is queued with extent `x`, in rising page number: pages already
queued keep their places with the extents joined, the others follow at the tail (R24, R25, R27, R28). -/
def queuedInOrder (sel : PageNo → Bool) (x : Extent) (q : List (PageNo × Extent)) : List (PageNo × Extent) :=
  (q.map fun e => if sel e.1 then (e.1, if e.2 = .span ∧ x = .span then .span else .full) else e) ++
    ((List.finRange 64).filter fun p => sel p && !(q.any fun e => e.1 = p)).map fun p => (p, x)

/-- A write of words into the store of an owned page (R19 to R21): the words at their offsets and no other word changed; the
span covers the range unless the policy is QUIET; in ACTIVE an ON_WRITE page is queued SPAN and a GATHER page signals its
channel. Version and every other page stay. -/
def WritesStore (p : PageNo) (offset : Nat) (ws : List Word) (s t : State) : Prop :=
  memoryWf t.memory = true ∧
  (∀ (q : PageNo) (x : Nat), x < 64 →
    t.word q x = if q = p ∧ offset ≤ x then ws.getD (x - offset) (s.word q x) else s.word q x) ∧
  (∀ q : PageNo, t.disputed q = s.disputed q ∧ (q ≠ p → t.variant q = s.variant q)) ∧
  (∀ d r, s.variant p = .own d r →
    t.variant p =
      .own d
        { version := r.version
          span :=
            if d.policy = .quiet then r.span
            else
              match r.span with
              | none => some { low := offset, high := offset + ws.length - 1 }
              | some sp => some { low := min sp.low offset, high := max sp.high (offset + ws.length - 1) } } ∧
    t.publishQueue =
      (if s.station = .active ∧ d.policy = .onWrite then queuedInOrder (fun q => q = p) .span s.publishQueue
       else s.publishQueue) ∧
    ∀ c : ChannelNo, t.channels[c] =
      if s.station = .active ∧ d.policy = .gather c ∧
          (s.channels[c].kind = .gatherQuiet ∨ (s.channels[c].kind = .gatherOnce ∧ s.channels[c].run = none)) then
        { s.channels[c] with
          run := some { pre := s.channels[c].prescale, main := s.channels[c].count, due := false } }
      else s.channels[c]) ∧
  t = { s with memory := t.memory, pages := t.pages, publishQueue := t.publishQueue, channels := t.channels }

/-- Words applied to the mirror of page `p` with a new record (R56, R59): words, state, last version and mark, the age counter
loaded with the age limit or stopped with limit 0, and the page appended to the notify queue if it is watched. -/
def AppliesToMirror (p : PageNo) (d : MirrorDesc) (first : Nat) (ws : List Word) (v : Byte) (st : MirrorState)
    (mark : RefreshMark) (s t : State) : Prop :=
  memoryWf t.memory = true ∧
  (∀ (q : PageNo) (x : Nat), x < 64 →
    t.word q x = if q = p ∧ first ≤ x then ws.getD (x - first) (s.word q x) else s.word q x) ∧
  (∀ q : PageNo, t.disputed q = s.disputed q ∧ (q ≠ p → t.variant q = s.variant q)) ∧
  t.variant p =
    .mirror d
      { state := st, last := some v, mark := mark
        age := if d.ageLimit = 0 then none else some { pre := 100, main := d.ageLimit, due := false } } ∧
  ∃ u, u = { s with memory := t.memory, pages := t.pages } ∧ t = if d.watch then notifyAppend p u else u

/-- Command `c` is an UPDATE whose words the mirror unit writes into page `p` from offset `first` (R54 to R56): from the owner of
the mirror, the page not DISPUTED, the range within the page, and the mirror EMPTY or the version 1 to 127 ahead of its last. -/
def AppliesUpdate (c : Instr) (s : State) (p : PageNo) (first : Nat) (ws : List Word) (watch : Bool) : Prop :=
  ∃ x v f d r, c = .updateFrame x p v f ws ∧ f.toNat = first ∧ x ≠ s.record.own ∧ 1 ≤ ws.length ∧
    first + ws.length ≤ 64 ∧ s.disputed p = false ∧ s.variant p = .mirror d r ∧ d.owner = x ∧ d.watch = watch ∧
    (r.state = .empty ∨ ∃ l, r.last = some l ∧ 1 ≤ (v - l).toNat ∧ (v - l).toNat ≤ 127)

/-- Command `c` is a REPLY of 64 words with status DONE that matches a SENT REFRESH entry of the mirrored page `p` and is not older
than its last version (R59, R79, R82). -/
def AppliesRefresh (c : Instr) (s : State) (p : PageNo) (first : Nat) (ws : List Word) (watch : Bool) : Prop :=
  ∃ tag attempt page version r k d m l, c = .replyFrame r.owner tag r.issue attempt 0 page version 64 ws ∧ first = 0 ∧
    r.owner ≠ s.record.own ∧ ws.length = 64 ∧ page.toNat = p.val ∧ s.table[tag] = some r ∧ r.phase = .sent k ∧
    r.kind = .refresh ∧ r.page = p ∧ r.attempt = attempt.toNat ∧ s.variant p = .mirror d m ∧ d.owner = r.owner ∧
    d.watch = watch ∧ m.state ≠ .empty ∧ m.last = some l ∧ (version - l).toNat ≤ 127

/-- Command `c` is a remote WRITE that the service unit accepts (R94, R95, R102, R103): the station ACTIVE with room in the reply
queue, the filter missed, page `p` owned, not DISPUTED and open to remote writes, and the range within it. -/
def AcceptsWrite (c : Instr) (s : State) (p : PageNo) (first : Nat) (ws : List Word) (watch : Bool) : Prop :=
  ∃ x page offset tag issue attempt d r, c = .writeFrame x page offset tag issue attempt ws ∧ offset.toNat = first ∧
    x ≠ s.record.own ∧ s.station = .active ∧ s.replyQueue.length < 8 ∧
    (∀ h ∈ s.filter, ¬ (h.writer = x ∧ h.tag = tag ∧ h.issue = issue)) ∧ page.toNat = p.val ∧ s.disputed p = false ∧
    s.variant p = .own d r ∧ d.remoteWrites = .accept ∧ d.watch = watch ∧ 1 ≤ ws.length ∧ ws.length ≤ 16 ∧
    first + ws.length ≤ 64

/-- Command `c` is a frame heard that writes the words `ws` into page `p` from offset `first`, by one of the three paths of R1
from the line; `watch` is the page's watch field. -/
def AppliesWords (c : Instr) (s : State) (p : PageNo) (first : Nat) (ws : List Word) (watch : Bool) : Prop :=
  s.resetHeld = false ∧ s.hears = true ∧
    (AppliesUpdate c s p first ws watch ∨ AppliesRefresh c s p first ws watch ∨ AcceptsWrite c s p first ws watch)

/-- Command `c` applies words to the watched page `p` (R68, R103). -/
def AppliesToWatched (c : Instr) (s : State) (p : PageNo) : Prop := ∃ first ws, AppliesWords c s p first ws true

/-- The body of the answer to `x` that an entry of the reply queue is built into (R97, R100): an ACK with the status decided at
the arrival; a REPLY refused with RANGE, DISPUTED or NOT_OWNER, or carrying the words and version of the store as they
stand. -/
def AnswerIs (s : State) (e : ReplyEntry) (x : Station) (body : FrameBody) : Prop :=
  (∃ tag issue attempt st, e = .ack x tag issue attempt st ∧ body = .ack tag issue attempt (remoteCode st)) ∨
  ∃ tag issue attempt page offset count, e = .reply x tag issue attempt page offset count ∧
    ((63 < page.toNat ∧ body = .reply tag issue attempt 4 page 0 0 []) ∨
      ∃ p : PageNo, p.val = page.toNat ∧
        ((s.disputed p = true ∧ body = .reply tag issue attempt 2 page 0 0 []) ∨
          (s.disputed p = false ∧ (s.variant p).isOwn = false ∧ body = .reply tag issue attempt 1 page 0 0 []) ∨
          (s.disputed p = false ∧ ∃ d r, s.variant p = .own d r ∧
            (((count = 0 ∨ 64 < offset.toNat + count.toNat) ∧ body = .reply tag issue attempt 4 page 0 0 []) ∨
              (count ≠ 0 ∧ offset.toNat + count.toNat ≤ 64 ∧
                body = .reply tag issue attempt 0 page r.version count
                  ((List.range count.toNat).map fun i => s.word p (offset.toNat + i)))))))

/-- The rows that are due before any time passes: the expiry of a counter that a tick has ended, by the kind of its counter
(R46, R47, R84, R63, R166, R146); a refresh claim while some page can claim an entry (R58); and the end of a rest that is
complete (R117, R118). -/
def DueRow (s : State) : Instr → Prop
  | .gatherChannelExpiry c => s.channels[c].kind ≠ .period ∧ ∃ k, s.channels[c].run = some k ∧ k.due = true
  | .periodChannelExpiry c => s.channels[c].kind = .period ∧ ∃ k, s.channels[c].run = some k ∧ k.due = true
  | .replyTimerExpiry u => ∃ r k, s.table[u] = some r ∧ r.phase = .sent k ∧ k.due = true
  | .ageCounterExpiry p => ∃ d r k, s.variant p = .mirror d r ∧ r.age = some k ∧ k.due = true
  | .silenceCounterExpiry x => ∃ k, s.peers[x].state = .present k ∧ k.due = true
  | .presenceTimerExpiry => ∃ k, s.presenceTimer = some k ∧ k.due = true
  | .refreshClaim =>
    s.station = .active ∧ (∃ u : Tag, s.table[u] = none) ∧
      ∃ (p : PageNo) (d : MirrorDesc) (r : MirrorRun), s.variant p = .mirror d r ∧ r.mark = .wanted ∧ Present s d.owner
  | .brokenFrameEnd =>
    s.station ≠ .setup ∧ s.transmitter = .idle ∧ ∃ n, s.receiver = .recovering .brokenFrame n ∧ 10 ≤ n
  | .recoveringEnd =>
    s.station ≠ .setup ∧ s.transmitter = .idle ∧
      ∃ cause n, cause ≠ .brokenFrame ∧ s.receiver = .recovering cause n ∧ 10 ≤ n
  | _ => False

/-- A start instant has been taken and the first bit of the station's own frame has not yet reached its receiver (R133). -/
abbrev OwnStart (s : State) : Prop := s.receiver = .resting ∧ ∃ n, s.transmitter = .sending n

/-- Nothing is due before the next bit time. -/
def NothingDue (s : State) : Prop := ¬ OwnStart s ∧ ∀ c, ¬ DueRow s c

/-- One bit time passes on a line that no other station drives (the model's clock: notes/assumptions/1.md, 4.md, 12.md, 18.md,
19.md and 33.md): the bit-counted timers advance, and exactly the rows whose instants are reached wait: TICK at 2000 REFCLK periods
(R38), the reply window at Q (R136), the rotation slot at Q + W × (rank + 1) (R137), the end of the listen period at
Q + W × (N + 1) (R135), the abort after 16 jam bits (R122), the own jam found after 10 of them (R117), and the completion at
the frame's last bit (R114, R124). -/
def PassesBitTime (s t : State) : Prop :=
  t.refclk = s.refclk + (match s.record.rate with | .mbit1 => 20 | .mbit2_5 => 8 | .mbit5 => 4 | .mbit10 => 2) ∧
  (t.accessTimer = s.accessTimer.map fun n => if n + 1 = 12 + s.record.ring * 8 then 12 else n + 1) ∧
  (s.receiver ≠ .receiving → t.listen = s.listen.map fun n => n + 1) ∧
  (s.receiver = .receiving → t.listen = s.listen) ∧
  (∀ cause n, s.receiver = .recovering cause n →
    t.receiver =
      .recovering (if cause = .rejoined then .joining else cause) (if s.transmitter = .idle then n + 1 else n)) ∧
  ((∀ cause n, s.receiver ≠ .recovering cause n) → t.receiver = s.receiver) ∧
  (∀ n f, s.transmitter = .sending n → s.buffer = some f →
    t.transmitter = .sending (if n + 1 < 2 + 10 * (6 + f.frame.body.bytes.length) then n + 1 else n)) ∧
  (∀ n, s.transmitter = .jamming n → t.transmitter = .jamming (if n < 16 then n + 1 else n)) ∧
  (s.transmitter = .idle → t.transmitter = .idle) ∧
  (.tick ∈ t.pending ↔ 2000 ≤ t.refclk) ∧
  (.replyWindow ∈ t.pending ↔ s.windowOpen = true ∧ s.accessTimer = some 11) ∧
  (.rotationSlot ∈ t.pending ↔ s.accessTimer = some (11 + 8 * (rank s.record.own s.record.ring s.view + 1))) ∧
  (.listenPeriodEnd ∈ t.pending ↔ s.receiver = .resting ∧ s.listen = some (11 + 8 * (s.record.ring + 1))) ∧
  (.abort ∈ t.pending ↔ ∃ n, s.transmitter = .jamming n ∧ 16 ≤ n) ∧
  (.frameFoundBroken .jam ∈ t.pending ↔ s.transmitter = .jamming 10 ∧ s.receiver = .receiving) ∧
  (.completion ∈ t.pending ↔ ∃ n f, s.transmitter = .sending n ∧ s.buffer = some f ∧
    2 + 10 * (6 + f.frame.body.bytes.length) ≤ n + 1) ∧
  (∀ c ∈ t.pending, c = .tick ∨ c = .replyWindow ∨ c = .rotationSlot ∨ c = .listenPeriodEnd ∨ c = .abort ∨
    c = .frameFoundBroken .jam ∨ c = .completion)

/-- The end of a good frame from another station `x` (R118, R130, R132, R135, R136, R165): the receiver rests, the view is `x`,
the access timer runs from 0, a listen period is over, a reply window is opened or not; and the presence of `x` is renewed,
with PEER_CHANGE if it was not PRESENT. -/
def HearsFrom (x : Station) (window : Bool) (s g : State) : Prop :=
  (∀ y : Station, g.peers[y] =
    if y = x then
      { s.peers[x] with state := .present { pre := 100, main := s.record.silence, due := false } }
    else s.peers[y]) ∧
  g = { s with
        receiver := .resting, view := some x, accessTimer := some 0, listen := none, windowOpen := window,
        peers := g.peers, flags := if s.isPresent x then s.flags else s.flags ||| 0x20#8 }

/-- The configuration error of one page at JOIN (R18, Table 1.3): BAD_OWNER for a peer owner not below N or equal to the own
number, BAD_CHANNEL for a GATHER page on a PERIOD channel or a PERIOD page on a gathering one. -/
def PageRefused (s : State) (p : PageNo) (e : ConfigError) : Prop :=
  (e = .badOwner ∧ ∃ x, (s.variant p).peerOwner = some x ∧ (s.record.ring ≤ x.val ∨ x = s.record.own)) ∨
  (e = .badChannel ∧ ∃ d r, s.variant p = .own d r ∧
    ((∃ c, d.policy = .gather c ∧ s.channels[c].kind = .period) ∨
      ∃ c, d.policy = .period c ∧ s.channels[c].kind ≠ .period))

/-- The length of a body is the one that Table 7.3 gives for its kind, from the body's own count and status fields. -/
def LengthFits (kind : Nat) (body : List Byte) : Prop :=
  (kind = 1 ∧ body.length = 10) ∨ (kind = 2 ∧ body.length = 0) ∨ (kind = 3 ∧ body.length = 0) ∨
  (kind = 4 ∧ ∃ c, body[3]? = some c ∧ body.length = 4 + 2 * c.toNat) ∨ (kind = 5 ∧ body.length = 5) ∨
  (kind = 6 ∧ ∃ c, body[2]? = some c ∧ body.length = 5 + 2 * c.toNat) ∨
  (kind = 7 ∧ ∃ st c, body[2]? = some st ∧ body[5]? = some c ∧
    body.length = if st = 0 then 6 + 2 * c.toNat else 6) ∨
  (kind = 8 ∧ body.length = 3)

/-- A test of R119 finds the frame of header byte 0, sender, target and body malformed. -/
def FoundMalformed (h0 sender target : Byte) (body : List Byte) : Prop :=
  134 < body.length ∨
  (h0.toNat % 16 = 0 ∨ 9 ≤ h0.toNat % 16 ∨ h0.getLsbD 5 = true ∨ h0.getLsbD 6 = true ∨ h0.getLsbD 7 = true) ∨
  (h0.getLsbD 4 = true ∧ h0.toNat % 16 ≠ 1) ∨
  31 < sender.toNat ∨
  (if h0.toNat % 16 ≤ 4 then target ≠ 0xFF#8 else 31 < target.toNat) ∨
  ¬ LengthFits (h0.toNat % 16) body ∨
  (h0.toNat % 16 = 4 ∧ (body[3]? = some 0 ∨ ∃ p, body[0]? = some p ∧ 63 < p.toNat))

/-- The sender byte of a row that is a good frame received from the line; the duplicate-station row carries none. -/
def frameSender : Instr → Option Byte
  | .updateFrame x _ _ _ _ => some (byteOf x.val)
  | .fetchFrame x _ _ _ _ _ _ => some (byteOf x.val)
  | .writeFrame x _ _ _ _ _ _ => some (byteOf x.val)
  | .replyFrame x _ _ _ _ _ _ _ _ => some (byteOf x.val)
  | .ackFrame x _ _ _ _ => some (byteOf x.val)
  | .announceFrame x _ _ _ _ => some (byteOf x.val)
  | .presenceFrame x => some (byteOf x.val)
  | .leaveFrame x => some (byteOf x.val)
  | .malformedFrame b => some b
  | .otherTargetFrame x => some (byteOf x.val)
  | _ => none

/-- The descriptor of a page without its run-state (R3 to R5). -/
def PageVariant.sameDescriptor : PageVariant → PageVariant → Prop
  | .none, .none => True
  | .own d _, .own d' _ => d = d'
  | .mirror d _, .mirror d' _ => d = d'
  | .fetch d, .fetch d' => d = d'
  | _, _ => False

end Sys2Proof.Machine
end

