-- ==== Sys2Proof/WellFormed.lean ====
section
/-! DEFINITION. The checks on a command as a term: which terms of `Instr` stand for something the pins of the station can
carry. The machine is total without them (notes/assumptions/15.md says what it does with the rest). -/

namespace Sys2Proof

/-- Whether a byte is a command code of Table 10.1. -/
def isCommandCode (code : Byte) : Bool :=
  code = 0x01#8 || code = 0x02#8 || code = 0x03#8 || code = 0x04#8 || code = 0x08#8 || code = 0x09#8 ||
    code = 0x0A#8 || code = 0x0F#8 || code = 0x10#8 || code = 0x11#8 || code = 0x12#8 || code = 0x13#8 ||
    code = 0x20#8 || code = 0x21#8 || code = 0x22#8 || code = 0x23#8 || code = 0x24#8 || code = 0x25#8

/-- The owner byte of a reserved variant is none of SELF, NONE and the 32 peer numbers (Table 10.3). -/
def PageArgs.wf : PageArgs → Bool
  | .self _ _ _ _ => true
  | .peer _ _ _ _ _ => true
  | .none => true
  | .reserved owner => owner != Config.ownerSelf && owner != Config.ownerNone && decide (32 ≤ owner.toNat)

/-- The words that follow the count byte of a WRITE command are as many as it says (R178). -/
def writeWf (count : Byte) (words : List Word) : Bool := decide (words.length = writeWordCount count)

/-- An UPDATE that is not malformed carries at least one word, and its body at most 134 bytes (R119 tests 1 and 7). -/
def updateWf (words : List Word) : Bool :=
  decide (1 ≤ words.length ∧ 4 + 2 * words.length ≤ Config.longestBody)

/-- A WRITE frame's body is at most 134 bytes (R119 test 1). -/
def writeFrameWf (words : List Word) : Bool := decide (5 + 2 * words.length ≤ Config.longestBody)

/-- A REPLY carries count words with status DONE and none otherwise, and its body is at most 134 bytes (Table 7.3, R119
tests 1 and 6). -/
def replyWf (status count : Byte) (words : List Word) : Bool :=
  if status = 0 then decide (words.length = count.toNat ∧ 6 + 2 * words.length ≤ Config.longestBody) else words.isEmpty

/-- How many bit times in a row can have read recessive at a finding: at a CRC error the last stop bit and the data bits of 1
before it; at a short frame also the start bit that was due, after a byte or after the start pattern (R113, R117). -/
def Finding.wf : Finding → Bool
  | .badStartPattern => true
  | .badStopBit => true
  | .jam => true
  | .shortFrame quiet => decide (2 ≤ quiet ∧ quiet ≤ 10)
  | .crcError quiet => decide (1 ≤ quiet ∧ quiet ≤ 9)

/-- A command the station's pins can carry. -/
def Instr.wf : Instr → Bool
  | .setStation _ _ _ _ _ _ => true
  | .setPage _ args => args.wf
  | .setChannel _ _ _ _ => true
  | .setMask _ _ => true
  | .join => true
  | .leave => true
  | .rejoin => true
  | .softReset => true
  | .read _ _ _ => true
  | .write _ _ count words => writeWf count words
  | .collect _ => true
  | .flush _ => true
  | .status => true
  | .peer _ => true
  | .pageState _ => true
  | .channelState _ => true
  | .popNotify => true
  | .clearEvents _ => true
  | .unknownCommand code => !isCommandCode code
  | .transactionDiscarded transaction => decide (decodeTransaction transaction = .transactionDiscarded transaction)
  | .hardwareReset => true
  | .resetRelease => true
  | .tick => true
  | .gatherChannelExpiry _ => true
  | .periodChannelExpiry _ => true
  | .replyTimerExpiry _ => true
  | .ageCounterExpiry _ => true
  | .silenceCounterExpiry _ => true
  | .presenceTimerExpiry => true
  | .activityStart => true
  | .updateFrame _ _ _ _ words => updateWf words
  | .fetchFrame _ _ _ _ _ _ _ => true
  | .writeFrame _ _ _ _ _ _ words => writeFrameWf words
  | .replyFrame _ _ _ _ remote _ _ count words => replyWf remote count words
  | .ackFrame _ _ _ _ _ => true
  | .announceFrame _ _ _ _ _ => true
  | .presenceFrame _ => true
  | .leaveFrame _ => true
  | .duplicateStationFrame => true
  | .malformedFrame _ => true
  | .brokenFrameEnd => true
  | .recoveringEnd => true
  | .listenPeriodEnd => true
  | .replyWindow => true
  | .rotationSlot => true
  | .readbackMismatch => true
  | .abort => true
  | .completion => true
  | .refreshClaim => true
  | .otherTargetFrame _ => true
  | .frameFoundBroken finding => finding.wf

/-- The body of a frame that is not malformed: an UPDATE of a page of the common space with words, counts that agree with
the words, at most 134 bytes (R119). -/
def FrameBody.wf : FrameBody → Bool
  | .announce _ _ _ _ => true
  | .presence => true
  | .leave => true
  | .update page _ _ words => decide (page.toNat < 64) && updateWf words
  | .fetch _ _ _ _ _ _ => true
  | .write _ _ _ _ _ words => writeFrameWf words
  | .reply _ _ _ status _ _ count words => replyWf status count words
  | .ack _ _ _ _ => true

/-- A frame that is not malformed: sender and target as Tables 7.2 and 7.3 give for its kind, and a well-formed body
(R119). -/
def Frame.wf (f : Frame) : Bool :=
  decide (f.sender.toNat < 32) &&
    (if kindToAll f.body.kindCode.toNat then f.target == Config.toAll else decide (f.target.toNat < 32)) && f.body.wf

end Sys2Proof
end

