-- ==== Sys2Proof/Certificates/Slice0/Obligations.lean ====
section
/-! DEFINITION. The statements about the station, from the numbered rules of spec/. Status bytes are written as Table 10.2 codes
them; the relations `EntersSetup`, `LosesOwner` and so on are those of Sys2Proof/Safety.lean. -/

open Sys2Proof Sys2Proof.Machine

/-! ### The queue of commands and the resets -/

/-- A step takes the command at the front of the queue. With none waiting, what passes is the model's clock
(notes/assumptions/1.md, 4.md, 12.md, 18.md, 19.md and 33.md): only the bit-counted timers, the REFCLK count and the queue can
change, and nothing while RESETn is low. The station's own ACTIVITY_START comes first (R133); then exactly the rows that are due,
each once, a complete rest leading; with nothing due a bit time passes and brings the rows whose instants it reaches. -/
def Obligations.StepRunsFrontCommand : Prop :=
  (∀ (c : Instr) (rest : List Instr) (s : State), s.pending = c :: rest →
    step s = exec c { s with pending := rest }) ∧
  ∀ s : State, s.pending = [] → ∃ t, step s = .next t ∧ (s.resetHeld = true → t = s) ∧
    t = { s with
          pending := t.pending, transmitter := t.transmitter, receiver := t.receiver, listen := t.listen,
          accessTimer := t.accessTimer, refclk := t.refclk } ∧
    (s.resetHeld = false →
      (OwnStart s → t = { s with pending := [.activityStart] }) ∧
      (¬ OwnStart s → (∃ c, DueRow s c) →
        t = { s with pending := t.pending } ∧ t.pending.Nodup ∧ (∀ c, c ∈ t.pending ↔ DueRow s c) ∧
        (DueRow s .brokenFrameEnd → t.pending.head? = some .brokenFrameEnd) ∧
        (DueRow s .recoveringEnd → t.pending.head? = some .recoveringEnd)) ∧
      (NothingDue s → PassesBitTime s t))

/-- No command stops the station (notes/assumptions/25.md), none touches the queue, not even a reset, and while RESETn is low
only the two edges of RESETn have an effect, whatever the row (both notes/assumptions/21.md). -/
def Obligations.EveryCommandAnswersNext : Prop :=
  ∀ (c : Instr) (s : State), ∃ t, exec c s = .next t ∧ t.pending = s.pending ∧
    (s.resetHeld = true → c ≠ .hardwareReset → c ≠ .resetRelease → t = s)

/-- R163, on the state as a whole. Every value R163 and the rules it names give stands as they give it. The queue kept across a
reset and the row with RESETn high already are the model's (notes/assumptions/21.md), and so are the receiver at RESTING
(notes/assumptions/7.md) and the empty response (notes/assumptions/8.md) that `State.reset` holds. -/
def Obligations.HardwareResetValues : Prop :=
  ∀ s : State, ∃ t u,
    exec .hardwareReset s = .next t ∧ t = { State.reset with pending := s.pending, resetHeld := true } ∧
    t.lde = false ∧ t.ltx = true ∧ t.intnLow = false ∧
    (∀ c, c ≠ .hardwareReset → c ≠ .resetRelease → exec c t = .next t) ∧
    exec .resetRelease t = .next u ∧ u = { State.reset with pending := s.pending } ∧ exec .resetRelease u = .next u ∧
    u.station = .setup ∧ u.configError = .none ∧ u.mutedReason = .none ∧ u.flags = 0 ∧ u.intnLow = false ∧
    (∀ p, u.variant p = .none ∧ u.disputed p = false) ∧ (∀ p o, u.word p o = 0) ∧
    (∀ c : ChannelNo, u.channels[c] = { kind := .gatherOnce, prescale := 1, count := 1, run := none }) ∧
    u.record = { own := 0, ring := 2, rate := .mbit1, silence := 10, replyTimeout := 20, retryLimit := 3 } ∧
    (∀ r : Tag, u.table[r] = none ∧ u.issues[r] = 0) ∧ u.mask = 0 ∧ u.notifyEnable = false ∧
    u.counters = { broken := 0, malformed := 0, oldUpdates := 0, lateReplies := 0, overruns := 0, notifyLost := 0 } ∧
    exec .softReset u = .next { u with response := [0x00#8] }

/-! ### Configuration commands -/

/-- R175. -/
def Obligations.SetStationRecord : Prop :=
  ∀ (a b c d e f : Byte) (s : State), s.resetHeld = false →
    (s.station ≠ .setup → exec (.setStation a b c d e f) s = .next { s with response := [0x10#8] }) ∧
    (s.station = .setup →
      (31 < a.toNat ∨ b.toNat < 2 ∨ 32 < b.toNat ∨ 3 < c.toNat ∨ d.toNat < 2 ∨ e = 0 ∨ 7 < f.toNat) →
      exec (.setStation a b c d e f) s = .next { s with response := [0x11#8] }) ∧
    (s.station = .setup → ∀ (own : Station) (rate : LineRate), own.val = a.toNat → 2 ≤ b.toNat → b.toNat ≤ 32 →
      ((c = 0 ∧ rate = .mbit1) ∨ (c = 1 ∧ rate = .mbit2_5) ∨ (c = 2 ∧ rate = .mbit5) ∨ (c = 3 ∧ rate = .mbit10)) →
      2 ≤ d.toNat → e ≠ 0 → f.toNat ≤ 7 →
      exec (.setStation a b c d e f) s =
        .next { s with
                record :=
                  { own := own, ring := b.toNat, rate := rate, silence := d.toNat, replyTimeout := e.toNat,
                    retryLimit := f.toNat }
                response := [0x00#8] })

/-- R6 and Table 10.3: the descriptor replaced whole with its starting run-state, or refused. -/
def Obligations.SetPageDescriptor : Prop :=
  ∀ (page : Byte) (args : PageArgs) (s : State), s.resetHeld = false →
    (s.station ≠ .setup → exec (.setPage page args) s = .next { s with response := [0x10#8] }) ∧
    (s.station = .setup → ∀ p : PageNo, p.val = page.toNat →
      (args = .none →
        exec (.setPage page args) s = .next { setVariant p .none s with response := [0x00#8] }) ∧
      (∀ (pol chan remote watch : Byte) (P : Policy) (R : RemoteWrites) (W : Bool), args = .self pol chan remote watch →
        ((pol = 0 ∧ P = .onWrite) ∨ (pol = 1 ∧ ∃ c : ChannelNo, c.val = chan.toNat ∧ P = .gather c) ∨
          (pol = 2 ∧ ∃ c : ChannelNo, c.val = chan.toNat ∧ P = .period c) ∨ (pol = 3 ∧ P = .quiet)) →
        ((remote = 0 ∧ R = .accept) ∨ (remote = 1 ∧ R = .refuse)) → ((watch = 0 ∧ W = false) ∨ (watch = 1 ∧ W = true)) →
        exec (.setPage page args) s =
          .next { setVariant p (.own { policy := P, remoteWrites := R, watch := W } { version := 0, span := none }) s with
                  response := [0x00#8] }) ∧
      (∀ (x : Station) (readRoute writeRoute age watch : Byte) (R : WriteRoute) (W : Bool),
        args = .peer x readRoute writeRoute age watch →
        ((writeRoute = 0 ∧ R = .send) ∨ (writeRoute = 1 ∧ R = .deny)) → ((watch = 0 ∧ W = false) ∨ (watch = 1 ∧ W = true)) →
        (readRoute = 0 →
          exec (.setPage page args) s =
            .next { setVariant p (.mirror { owner := x, writeRoute := R, ageLimit := age.toNat, watch := W }
                      { state := .empty, last := none, age := none, mark := .none }) s with response := [0x00#8] }) ∧
        (readRoute = 1 →
          exec (.setPage page args) s =
            .next { setVariant p (.fetch { owner := x, writeRoute := R, watch := W }) s with response := [0x00#8] }))) ∧
    (s.station = .setup →
      (63 < page.toNat ∨ (∃ o, args = .reserved o) ∨
        (∃ a c r w, args = .self a c r w ∧
          (3 < a.toNat ∨ ((a = 1 ∨ a = 2) ∧ 7 < c.toNat) ∨ 1 < r.toNat ∨ 1 < w.toNat)) ∨
        (∃ x rr wr age w, args = .peer x rr wr age w ∧ (1 < rr.toNat ∨ 1 < wr.toNat ∨ 1 < w.toNat))) →
      exec (.setPage page args) s = .next { s with response := [0x11#8] })

/-- R41 and R177. -/
def Obligations.SetChannelRecord : Prop :=
  ∀ (channel kind prescale countLess : Byte) (s : State), s.resetHeld = false →
    (s.station ≠ .setup → exec (.setChannel channel kind prescale countLess) s = .next { s with response := [0x10#8] }) ∧
    (s.station = .setup → (7 < channel.toNat ∨ 2 < kind.toNat ∨ prescale = 0 ∨ 64 < prescale.toNat) →
      exec (.setChannel channel kind prescale countLess) s = .next { s with response := [0x11#8] }) ∧
    (s.station = .setup → ∀ (c : ChannelNo) (k : ChannelKind), c.val = channel.toNat →
      ((kind = 0 ∧ k = .gatherOnce) ∨ (kind = 1 ∧ k = .gatherQuiet) ∨ (kind = 2 ∧ k = .period)) →
      1 ≤ prescale.toNat → prescale.toNat ≤ 64 →
      ∃ t, exec (.setChannel channel kind prescale countLess) s = .next t ∧ t.response = [0x00#8] ∧
        t = { s with channels := t.channels, response := t.response } ∧
        (∀ c' : ChannelNo, t.channels[c'] =
          if c' = c then { kind := k, prescale := prescale.toNat, count := countLess.toNat + 1, run := none }
          else s.channels[c']) ∧
        exec (.channelState channel) t =
          .next { t with response := [0x00#8, kind, prescale, countLess, 0, 0, 0] })

/-- R185: SET_MASK replaces the whole mask, hardware reset clears it, and nothing else changes it. -/
def Obligations.MaskChanges : Prop :=
  (∀ (flags second : Byte) (s : State), s.resetHeld = false →
    exec (.setMask flags second) s =
      .next { s with mask := flags, notifyEnable := second.getLsbD 0, response := [0x00#8] }) ∧
  ∀ (c : Instr) (s t : State), exec c s = .next t →
    (c = .hardwareReset → t.mask = 0 ∧ t.notifyEnable = false) ∧
    ((∀ f g, c ≠ .setMask f g) → c ≠ .hardwareReset → t.mask = s.mask ∧ t.notifyEnable = s.notifyEnable)

/-! ### Lifecycle commands -/

/-- R18 and R153: the first check that fails refuses the JOIN with its code; a JOIN that passes enters JOINING. -/
def Obligations.JoinChecks : Prop :=
  ∀ s : State, s.resetHeld = false →
    (s.station ≠ .setup → exec .join s = .next { s with response := [0x10#8] }) ∧
    (s.station = .setup → s.record.ring ≤ s.record.own.val →
      exec .join s =
        .next { s with configError := .badStation, flags := s.flags ||| 0x08#8, response := [0x11#8] }) ∧
    (s.station = .setup → s.record.own.val < s.record.ring → ∀ (p : PageNo) (e : ConfigError), PageRefused s p e →
      (∀ q, q < p → ∀ e', ¬ PageRefused s q e') →
      exec .join s = .next { s with configError := e, flags := s.flags ||| 0x08#8, response := [0x11#8] }) ∧
    (s.station = .setup → s.record.own.val < s.record.ring → (∀ p e, ¬ PageRefused s p e) →
      ∃ t, EntersJoining .joining { s with configError := .none } t ∧ exec .join s = .next { t with response := [0x00#8] })

/-- R158: REJOIN takes a MUTED station to JOINING and is refused elsewhere. That the receiver's rest count starts at 0 then is the
model's choice (notes/assumptions/31.md), and so is the mark `rejoined` on its cause (notes/assumptions/33.md). A
duplicate-station frame taken next finds the station JOINING and mutes it again; view, timer and receiver after it are the
model's reading (notes/assumptions/16.md and 33.md). -/
def Obligations.RejoinFromMuted : Prop :=
  ∀ s : State, s.resetHeld = false →
    (s.station ≠ .muted → exec .rejoin s = .next { s with response := [0x10#8] }) ∧
    (s.station = .muted → ∃ t, EntersJoining .rejoined s t ∧ exec .rejoin s = .next { t with response := [0x00#8] } ∧
      (s.transmitter = .idle →
        ∃ u, EntersMuted .duplicateStation
            { t with response := [0x00#8], receiver := .resting, view := some s.record.own, accessTimer := some 0,
                     listen := none, windowOpen := false } u ∧
          exec .duplicateStationFrame { t with response := [0x00#8] } = .next u))

/-- R159 and R92: LEAVE in ACTIVE ends the requests, empties the queues and keeps a held frame that is no request frame; it is
refused in SETUP, JOINING and LEAVING. -/
def Obligations.LeaveFromActive : Prop :=
  ∀ s : State, s.resetHeld = false →
    ((s.station = .setup ∨ s.station = .joining ∨ s.station = .leaving) →
      exec .leave s = .next { s with response := [0x10#8] }) ∧
    (s.station = .active → ∃ u, DropsWork .cancelled s u ∧
      exec .leave s = .next { u with station := .leaving, response := [0x00#8] })

/-- R161: the four ways into SETUP other than a reset: LEAVE in MUTED, the completion of the LEAVE frame, the eighth abort in
LEAVING, and a ring-size mismatch in JOINING. The receiver at RESTING, where it takes nothing, is the model's choice
(notes/assumptions/7.md). -/
def Obligations.EntryToSetup : Prop :=
  ∀ s : State, s.resetHeld = false →
    (s.station = .muted → ∃ t, EntersSetup s t ∧
      exec .leave s = .next { t with flags := s.flags ||| 0x04#8, response := [0x00#8] }) ∧
    (s.station = .leaving → ∀ (n : Nat) (f : TxFrame), s.transmitter = .sending n → s.buffer = some f →
      f.origin = .leave → ∃ t, EntersSetup s t ∧ exec .completion s = .next { t with flags := s.flags ||| 0x04#8 }) ∧
    (s.station = .leaving → ∀ n : Nat, s.transmitter = .jamming n → s.abortCount = 7 →
      ∃ t, EntersSetup s t ∧ exec .abort s = .next { t with flags := s.flags ||| 0x04#8 }) ∧
    (s.station = .joining → s.hears = true → ∀ (x : Station) (j : Bool) (ring silence : Byte) (owned : PageSet),
      x ≠ s.record.own → ring.toNat ≠ s.record.ring →
      ∃ t, EntersSetup s t ∧
        exec (.announceFrame x j ring silence owned) s =
          .next { t with configError := .ringMismatch, flags := s.flags ||| 0x08#8 })

/-- R162. The receiver at RESTING, where it takes nothing, is the model's choice (notes/assumptions/7.md). -/
def Obligations.SoftResetEffect : Prop :=
  ∀ s : State, s.resetHeld = false →
    ∃ u t, EntersSetup s u ∧ exec .softReset s = .next t ∧ (∀ r : Tag, t.table[r] = none ∧ t.issues[r] = 0) ∧
      t.intnLow = false ∧
      t = { u with
            table := t.table, issues := t.issues, sendOrder := [], flags := 0, configError := .none,
            mutedReason := .none, response := [0x00#8]
            counters :=
              { broken := 0, malformed := 0, oldUpdates := 0, lateReplies := 0, overruns := 0, notifyLost := 0 } }

/-- R126, R144 and R157: the ways into MUTED, and a duplicate-station frame in MUTED. The view, timer and receiver after the
frame are those of any good frame. The frame is found while the transmitter is IDLE (R127) and the receiver does not wait for
rest, or just after a REJOIN (R158). The end of a listen period by the frame, the receiver after a REJOIN and the station's own
receiver after its jam are the model's reading (notes/assumptions/16.md, 33.md and 6.md). -/
def Obligations.EntryToMuted : Prop :=
  ∀ s : State, s.resetHeld = false →
    ((s.station = .joining ∨ s.station = .active ∨ s.station = .leaving) → s.findsTwin = true → TransmitSound s →
      ∃ t, EntersMuted .duplicateStation
          { s with receiver := .resting, view := some s.record.own, accessTimer := some 0, listen := none,
                   windowOpen := false } t ∧
        exec .duplicateStationFrame s = .next t) ∧
    (s.station = .muted → s.findsTwin = true →
      exec .duplicateStationFrame s =
        .next { s with receiver := .resting, view := some s.record.own, accessTimer := some 0, listen := none,
                       windowOpen := false, mutedReason := .duplicateStation, flags := s.flags ||| 0x02#8 }) ∧
    ((s.station = .joining ∨ s.station = .active) → ∀ n : Nat, s.transmitter = .jamming n → s.abortCount = 7 →
      ∃ t, EntersMuted .aborts
          { s with transmitter := .idle, receiver := .recovering .brokenFrame 0, accessTimer := none,
                   windowOpen := false } t ∧
        exec .abort s = .next t)

/-! ### Data commands -/

/-- R11 and R12: a READ refused for its arguments, and a READ answered from the page map. -/
def Obligations.ReadAnswers : Prop :=
  ∀ (page offset count : Byte) (s : State), s.resetHeld = false →
    ((63 < page.toNat ∨ 63 < offset.toNat ∨ count = 0 ∨ 16 < count.toNat ∨ 64 < offset.toNat + count.toNat) →
      exec (.read page offset count) s = .next { s with response := [0x11#8] }) ∧
    (∀ p : PageNo, p.val = page.toNat → offset.toNat ≤ 63 → 1 ≤ count.toNat → count.toNat ≤ 16 →
      offset.toNat + count.toNat ≤ 64 →
      (s.disputed p = true → exec (.read page offset count) s = .next { s with response := [0x14#8] }) ∧
      (s.disputed p = false → s.variant p = .none →
        exec (.read page offset count) s = .next { s with response := [0x12#8] }) ∧
      (s.disputed p = false → ∀ d r, s.variant p = .own d r →
        exec (.read page offset count) s =
          .next { s with
                  response := 0x00#8 :: 0x00#8 ::
                    wordsBytes ((List.range count.toNat).map fun i => s.word p (offset.toNat + i)) }) ∧
      (s.disputed p = false → ∀ d r, s.variant p = .mirror d r →
        (r.state = .empty → exec (.read page offset count) s = .next { s with response := [0x02#8] }) ∧
        ∀ b : Byte, ((r.state = .fresh ∧ b = 1) ∨ (r.state = .gapped ∧ b = 2) ∨ (r.state = .stale ∧ b = 3)) →
          exec (.read page offset count) s =
            .next { s with
                    response := 0x00#8 :: b ::
                      wordsBytes ((List.range count.toNat).map fun i => s.word p (offset.toNat + i)) }))

/-- R14, R17 and R75: a READ of a FETCH page or a WRITE to a SEND page, with the three conditions in their order, and the
allocation: lowest FREE tag, issue advanced, entry QUEUED at attempt 0, tag at the tail of the send order. -/
def Obligations.HostRequests : Prop :=
  ∀ (page offset count : Byte) (ws : List Word) (p : PageNo) (x : Station) (c : Instr) (kind : RequestKind) (s : State),
    s.resetHeld = false → p.val = page.toNat → offset.toNat ≤ 63 → 1 ≤ count.toNat → count.toNat ≤ 16 →
    offset.toNat + count.toNat ≤ 64 → s.disputed p = false →
    ((c = .read page offset count ∧ kind = .read ∧ ∃ d, s.variant p = .fetch d ∧ d.owner = x) ∨
      (c = .write page offset count ws ∧ ws.length = count.toNat ∧ kind = .write ws ∧
        ((∃ d, s.variant p = .fetch d ∧ d.owner = x ∧ d.writeRoute = .send) ∨
          ∃ d r, s.variant p = .mirror d r ∧ d.owner = x ∧ d.writeRoute = .send))) →
    (s.station ≠ .active → exec c s = .next { s with response := [0x10#8] }) ∧
    (s.station = .active → ¬ Present s x → exec c s = .next { s with response := [0x16#8] }) ∧
    (s.station = .active → Present s x → (∀ t : Tag, s.table[t] ≠ none) →
      exec c s = .next { s with response := [0x15#8] }) ∧
    (s.station = .active → Present s x → ∀ t : Tag, s.table[t] = none → (∀ u : Tag, u < t → s.table[u] ≠ none) →
      exec c s =
        .next { s with
                issues := s.issues.set t (s.issues[t] + 1)
                table := s.table.set t (some
                  { kind := kind, owner := x, page := p, offset := offset.toNat, count := count.toNat,
                    issue := s.issues[t] + 1, attempt := 0, phase := .queued false })
                sendOrder := s.sendOrder ++ [t]
                response := [0x01#8, byteOf t.val] })

/-- R11, R15, R16 and R19 to R21: a WRITE refused for its arguments or its route, and a WRITE into an owned page. -/
def Obligations.HostWrites : Prop :=
  ∀ (page offset count : Byte) (ws : List Word) (s : State), s.resetHeld = false → ws.length = writeWordCount count →
    ((63 < page.toNat ∨ 63 < offset.toNat ∨ count = 0 ∨ 16 < count.toNat ∨ 64 < offset.toNat + count.toNat) →
      exec (.write page offset count ws) s = .next { s with response := [0x11#8] }) ∧
    (∀ p : PageNo, p.val = page.toNat → offset.toNat ≤ 63 → 1 ≤ count.toNat → count.toNat ≤ 16 →
      offset.toNat + count.toNat ≤ 64 →
      (s.disputed p = true → exec (.write page offset count ws) s = .next { s with response := [0x14#8] }) ∧
      (s.disputed p = false → s.variant p = .none →
        exec (.write page offset count ws) s = .next { s with response := [0x12#8] }) ∧
      (s.disputed p = false → (s.variant p).writeRoute = some .deny →
        exec (.write page offset count ws) s = .next { s with response := [0x13#8] }) ∧
      (s.disputed p = false → MemorySound s → ∀ d r, s.variant p = .own d r →
        ∃ t, WritesStore p offset.toNat ws s t ∧
          exec (.write page offset count ws) s = .next { t with response := [0x00#8] }))

/-- R86 and R179. -/
def Obligations.CollectAnswers : Prop :=
  ∀ (tag : Byte) (s : State), s.resetHeld = false →
    (15 < tag.toNat → exec (.collect tag) s = .next { s with response := [0x11#8] }) ∧
    (∀ t : Tag, t.val = tag.toNat →
      (s.table[t] = none → exec (.collect tag) s = .next { s with response := [0x17#8] }) ∧
      (∀ r, s.table[t] = some r →
        (r.kind = .refresh → exec (.collect tag) s = .next { s with response := [0x17#8] }) ∧
        ∀ k : Byte, ((r.kind = .read ∧ k = 0) ∨ (∃ ws, r.kind = .write ws ∧ k = 1)) →
          (∀ framed, r.phase = .queued framed →
            exec (.collect tag) s = .next { s with response := [0x03#8, k, 0x01#8, byteOf r.attempt] }) ∧
          (∀ timer, r.phase = .sent timer →
            exec (.collect tag) s = .next { s with response := [0x03#8, k, 0x02#8, byteOf r.attempt] }) ∧
          (∀ st, r.phase = .done st none →
            exec (.collect tag) s =
              .next { s with table := s.table.set t none, response := [0x00#8, k, byteOf r.attempt, remoteCode st] }) ∧
          (∀ st v ws, r.phase = .done st (some (v, ws)) →
            exec (.collect tag) s =
              .next { s with
                      table := s.table.set t none
                      response := [0x00#8, k, byteOf r.attempt, remoteCode st, v, byteOf ws.length] ++ wordsBytes ws }) ∧
          (∀ why b, r.phase = .failed why →
            ((why = .timeout ∧ b = 0x80#8) ∨ (why = .ownerLost ∧ b = 0x81#8) ∨ (why = .muted ∧ b = 0x82#8) ∨
              (why = .cancelled ∧ b = 0x83#8)) →
            exec (.collect tag) s =
              .next { s with table := s.table.set t none, response := [0x00#8, k, byteOf r.attempt, b] })))

/-- R26: the first row that applies. -/
def Obligations.FlushAnswers : Prop :=
  ∀ (page : Byte) (s : State), s.resetHeld = false →
    (s.station ≠ .active → exec (.flush page) s = .next { s with response := [0x10#8] }) ∧
    (s.station = .active → 63 < page.toNat → exec (.flush page) s = .next { s with response := [0x11#8] }) ∧
    (s.station = .active → ∀ p : PageNo, p.val = page.toNat →
      ((s.variant p).isOwn = false → exec (.flush page) s = .next { s with response := [0x11#8] }) ∧
      ∀ d r, s.variant p = .own d r →
        (d.policy = .quiet → exec (.flush page) s = .next { s with response := [0x11#8] }) ∧
        (d.policy ≠ .quiet → s.disputed p = true → exec (.flush page) s = .next { s with response := [0x14#8] }) ∧
        (d.policy ≠ .quiet → s.disputed p = false → r.span = none →
          exec (.flush page) s = .next { s with response := [0x02#8] }) ∧
        (d.policy ≠ .quiet → s.disputed p = false → r.span ≠ none →
          exec (.flush page) s =
            .next { s with
                    publishQueue := queuedInOrder (fun q => q = p) .span s.publishQueue, response := [0x00#8] }))

/-! ### Commands that read the station, flags and notifications -/

/-- R180 and R129: the 22 bytes of STATUS, and the six counters set to 0 in the same change. -/
def Obligations.StatusResult : Prop :=
  ∀ s : State, s.resetHeld = false → ∃ t, exec .status s = .next t ∧
    t = { s with
          response := t.response
          counters :=
            { broken := 0, malformed := 0, oldUpdates := 0, lateReplies := 0, overruns := 0, notifyLost := 0 } } ∧
    ∃ station error reason : Byte,
      ((s.station = .setup ∧ station = 0) ∨ (s.station = .joining ∧ station = 1) ∨ (s.station = .active ∧ station = 2) ∨
        (s.station = .muted ∧ station = 3) ∨ (s.station = .leaving ∧ station = 4)) ∧
      ((s.configError = .none ∧ error = 0) ∨ (s.configError = .badStation ∧ error = 1) ∨
        (s.configError = .badOwner ∧ error = 2) ∨ (s.configError = .badChannel ∧ error = 3) ∨
        (s.configError = .ringMismatch ∧ error = 4)) ∧
      ((s.mutedReason = .none ∧ reason = 0) ∨ (s.mutedReason = .aborts ∧ reason = 1) ∨
        (s.mutedReason = .duplicateStation ∧ reason = 2)) ∧
      t.response =
        0x00#8 ::
          ([station, error, reason, s.flags, s.mask, if s.notifyEnable then 1 else 0, byteOf s.abortCount,
             byteOf ((List.finRange 16).filter fun r => s.table[r].isNone).length, byteOf s.publishQueue.length,
             byteOf s.notify.length] ++
            wordsBytes [s.counters.broken, s.counters.malformed, s.counters.oldUpdates, s.counters.lateReplies,
              s.counters.overruns, s.counters.notifyLost])

/-- R50, R164, R181 and R182: PEER, PAGE_STATE and CHANNEL_STATE report and change nothing. -/
def Obligations.StateReads : Prop :=
  ∀ (b : Byte) (s : State), s.resetHeld = false →
    (31 < b.toNat → exec (.peer b) s = .next { s with response := [0x11#8] }) ∧
    (∀ x : Station, x.val = b.toNat → ∃ head tail, exec (.peer b) s = .next { s with response := 0x00#8 :: head ++ tail } ∧
      (s.peers[x].state = .absent → head = [0, 0]) ∧ (s.peers[x].state = .silent → head = [2, 0]) ∧
      (∀ k, s.peers[x].state = .present k → head = [1, byteOf k.main]) ∧
      (s.peers[x].announced = none → tail = [0, 0, 0, 0, 0, 0, 0, 0, 0, 0]) ∧
      ∀ owned limit, s.peers[x].announced = some (owned, limit) → tail = 1 :: limit :: pageSetBytes owned) ∧
    (63 < b.toNat → exec (.pageState b) s = .next { s with response := [0x11#8] }) ∧
    (∀ p : PageNo, p.val = b.toNat → ∃ owner rest,
      exec (.pageState b) s = .next { s with response := 0x00#8 :: owner :: (if s.disputed p then 1 else 0) :: rest } ∧
      (s.variant p = .none → owner = 0x80#8 ∧ rest = [0, 0, 0, 0, 0, 0]) ∧
      (∀ d, s.variant p = .fetch d → owner = byteOf d.owner.val ∧ rest = [0, 0, 0, 0, 0, 1]) ∧
      (∀ d r q, s.variant p = .own d r →
        ((p ∉ s.publishQueue.map Prod.fst ∧ q = 0) ∨
          (∃ e ∈ (s.publishQueue.find? fun e => e.1 = p), (e.2 = .span ∧ q = 1) ∨ (e.2 = .full ∧ q = 2))) →
        owner = 0x40#8 ∧ (r.span = none → rest = [r.version, 0, 0, 0, q, 0]) ∧
        ∀ sp, r.span = some sp → rest = [r.version, 1, byteOf sp.low, byteOf sp.high, q, 0]) ∧
      (∀ d r, s.variant p = .mirror d r → owner = byteOf d.owner.val ∧
        ∃ st last age mark, rest = [st] ++ last ++ [age, mark, 0] ∧
          ((r.state = .empty ∧ st = 0) ∨ (r.state = .fresh ∧ st = 1) ∨ (r.state = .gapped ∧ st = 2) ∨
            (r.state = .stale ∧ st = 3)) ∧
          ((r.last = none ∧ last = [0, 0]) ∨ (∃ v, r.last = some v ∧ last = [1, v])) ∧
          ((r.age = none ∧ age = 0) ∨ (∃ k, r.age = some k ∧ age = byteOf k.main)) ∧
          ((r.mark = .none ∧ mark = 0) ∨ (r.mark = .wanted ∧ mark = 1) ∨ (r.mark = .pending ∧ mark = 2)))) ∧
    (7 < b.toNat → exec (.channelState b) s = .next { s with response := [0x11#8] }) ∧
    (∀ c : ChannelNo, c.val = b.toNat → ∃ kind run,
      exec (.channelState b) s =
        .next { s with
                response := 0x00#8 :: kind :: byteOf s.channels[c].prescale :: byteOf (s.channels[c].count - 1) :: run } ∧
      ((s.channels[c].kind = .gatherOnce ∧ kind = 0) ∨ (s.channels[c].kind = .gatherQuiet ∧ kind = 1) ∨
        (s.channels[c].kind = .period ∧ kind = 2)) ∧
      (s.channels[c].run = none → run = [0, 0, 0]) ∧
      ∀ k, s.channels[c].run = some k → run = [1, byteOf k.pre, byteOf (k.main - 1)])

/-- R187 and R188: an append to the notify queue and POP_NOTIFY, and what the two orders of both give, for the page at the head
and at a full queue. -/
def Obligations.NotifyQueueOrder : Prop :=
  (∀ s : State, s.resetHeld = false →
    (s.notify = [] → exec .popNotify s = .next { s with response := [0x02#8] }) ∧
    ∀ p rest, s.notify = p :: rest →
      exec .popNotify s = .next { s with notify := rest, response := [0x00#8, byteOf p.val] }) ∧
  (∀ (p : PageNo) (s : State),
    (p ∈ s.notify → notifyAppend p s = s) ∧
    (p ∉ s.notify → s.notify.length = 16 →
      notifyAppend p s =
        { s with
          flags := s.flags ||| 0x80#8
          counters :=
            { s.counters with
              notifyLost := if s.counters.notifyLost = 0xFFFF#16 then 0xFFFF#16 else s.counters.notifyLost + 1 } }) ∧
    (p ∉ s.notify → s.notify.length < 16 → notifyAppend p s = { s with notify := s.notify ++ [p] })) ∧
  (∀ (p : PageNo) (rest : List PageNo) (s : State), s.resetHeld = false → s.notify = p :: rest → p ∉ rest →
    rest.length < 16 →
    exec .popNotify (notifyAppend p s) = .next { s with notify := rest, response := [0x00#8, byteOf p.val] } ∧
    ∃ t, exec .popNotify s = .next t ∧ (notifyAppend p t).notify = rest ++ [p]) ∧
  ∀ (p q : PageNo) (rest : List PageNo) (s : State), s.resetHeld = false → s.notify = q :: rest → p ∉ s.notify →
    rest.length = 15 →
    (∃ t, exec .popNotify (notifyAppend p s) = .next t ∧ t.notify = rest ∧ t.flag .notifyLost = true) ∧
    ∃ t, exec .popNotify s = .next t ∧ notifyAppend p t = { t with notify := rest ++ [p] }

/-- R184: the flags as they stood, and exactly the named flags cleared; in either order with a setting the event is seen. -/
def Obligations.ClearEventsReports : Prop :=
  ∀ (named : Byte) (s : State), s.resetHeld = false →
    ∃ t, exec (.clearEvents named) s = .next t ∧ t = { s with flags := t.flags, response := [0x00#8, s.flags] } ∧
      (∀ e : Event, t.flag e = (s.flag e && !named.getLsbD e.bit)) ∧
      (∀ e : Event, named.getLsbD e.bit = true →
        (setFlag e t).flag e = true ∧ (s.mask.getLsbD e.bit = true → (setFlag e t).intnLow = true) ∧
        ∃ u, exec (.clearEvents named) (setFlag e s) = .next u ∧ u.flag e = false ∧
          u.response = [0x00#8, s.flags ||| e.byte])

/-- R172 and R173: a discarded transaction leaves the station as it was; a transaction cut before its decision instant, or one
that met RESETn low, is discarded; a code that is none of Table 10.1 is answered UNKNOWN_COMMAND at the end of its byte. -/
def Obligations.TransactionsWithoutEffect : Prop :=
  (∀ (t : Transaction) (s : State), exec (.transactionDiscarded t) s = .next s) ∧
  (∀ t : Transaction, t.sawReset = true → decodeTransaction t = .transactionDiscarded t) ∧
  (∀ (c : Instr) (bytes : List Byte) (n : Nat), c.wf = true → encodeCommand c = some bytes → n < bytes.length →
    decodeTransaction ⟨false, bytes.take n⟩ = .transactionDiscarded ⟨false, bytes.take n⟩) ∧
  (∀ (code : Byte) (s : State), s.resetHeld = false →
    exec (.unknownCommand code) s = .next { s with response := [0x1F#8] }) ∧
  ∀ (code : Byte) (more : List Byte), isCommandCode code = false →
    decodeTransaction ⟨false, code :: more⟩ = .unknownCommand code

/-- R186: the level of INTn in every state, and after each reset. -/
def Obligations.InterruptLevel : Prop :=
  (∀ s : State, s.intnLow = true ↔
    (∃ e : Event, s.flag e = true ∧ s.mask.getLsbD e.bit = true) ∨ (s.notify ≠ [] ∧ s.notifyEnable = true)) ∧
  ∀ s : State,
    (∀ t, exec .hardwareReset s = .next t → t.intnLow = false ∧ ∀ u, exec .resetRelease t = .next u → u.intnLow = false) ∧
    (s.resetHeld = false → ∀ t, exec .softReset s = .next t → t.intnLow = false)

/-- From section 10.5: a flag that is set stays set but for CLEAR_EVENTS naming it and the resets; a flag becomes set at the
events of Table 10.5, and each of those events leaves it set, a duplicate-station frame in MUTED and a notification lost at a
saturated counter among them. That frames are heard at about the station's own start instant, and the own number just after a
REJOIN, is the model's reading (notes/assumptions/32.md and 33.md). -/
def Obligations.FlagsTellEvents : Prop :=
  ∀ (c : Instr) (s t : State), exec c s = .next t →
    (∀ e : Event, s.flag e = true → t.flag e = false →
      c = .hardwareReset ∨ c = .softReset ∨ ∃ named, c = .clearEvents named ∧ named.getLsbD e.bit = true) ∧
    (c = .hardwareReset ∨ (c = .softReset ∧ s.resetHeld = false) → ∀ e : Event, t.flag e = false) ∧
    (c ≠ .hardwareReset → c ≠ .softReset →
      (s.flag .joined = false → t.flag .joined = true → s.station ≠ .active ∧ t.station = .active) ∧
      (s.station ≠ .active → t.station = .active → t.flag .joined = true) ∧
      (s.flag .muted = false → t.flag .muted = true →
        t.station = .muted ∧ (s.station ≠ .muted ∨ c = .duplicateStationFrame ∨
          frameSender c = some (byteOf s.record.own.val))) ∧
      (s.station ≠ .muted → t.station = .muted → t.flag .muted = true) ∧
      (s.resetHeld = false → s.station = .muted → s.findsTwin = true →
        (c = .duplicateStationFrame ∨ frameSender c = some (byteOf s.record.own.val)) → t.flag .muted = true) ∧
      (s.flag .left = false → t.flag .left = true →
        (s.station = .leaving ∨ (s.station = .muted ∧ c = .leave)) ∧ t.station = .setup) ∧
      (s.station = .leaving ∨ s.station = .muted → t.station = .setup → t.flag .left = true) ∧
      (s.flag .configError = false → t.flag .configError = true →
        t.configError ≠ .none ∧ t.station = .setup ∧ (c = .join ∨ s.station = .joining)) ∧
      (s.station = .joining → t.station = .setup → t.flag .configError = true) ∧
      (c = .join → s.resetHeld = false → s.station = .setup → t.station = .setup → t.flag .configError = true) ∧
      (s.flag .dispute = false → t.flag .dispute = true → ∃ p, s.disputed p = false ∧ t.disputed p = true) ∧
      (∀ p, s.disputed p = false → t.disputed p = true → t.flag .dispute = true) ∧
      (s.flag .peerChange = false → t.flag .peerChange = true → ∃ x : Station,
        (¬ Present s x ∧ Present t x) ∨ (Present s x ∧ t.peers[x].state = .silent) ∨
          (s.peers[x].state ≠ .absent ∧ t.peers[x].state = .absent)) ∧
      (∀ x : Station, (¬ Present s x ∧ Present t x) ∨ (Present s x ∧ t.peers[x].state = .silent) →
        t.flag .peerChange = true) ∧
      (∀ x : Station, s.peers[x].state ≠ .absent → t.peers[x].state = .absent → t.station = s.station →
        t.flag .peerChange = true) ∧
      (s.flag .requestDone = false → t.flag .requestDone = true → ∃ (u : Tag) (r r' : Request),
        s.table[u] = some r ∧ r.isOpen = true ∧ r.isRefresh = false ∧ t.table[u] = some r' ∧ r'.isOpen = false) ∧
      (∀ (u : Tag) (r r' : Request), s.table[u] = some r → r.isOpen = true → r.isRefresh = false →
        t.table[u] = some r' → r'.isOpen = false → t.flag .requestDone = true) ∧
      (s.flag .notifyLost = false → t.flag .notifyLost = true → 16 ≤ s.notify.length ∧ t.notify = s.notify) ∧
      (s.counters.notifyLost.toNat < t.counters.notifyLost.toNat → t.flag .notifyLost = true) ∧
      (∀ p : PageNo, AppliesToWatched c s p →
        (p ∉ s.notify → 16 ≤ s.notify.length → t.flag .notifyLost = true) ∧
        ((p ∈ s.notify ∨ s.notify.length < 16) → p ∈ t.notify)))

/-! ### The tick and the timers -/

/-- R42 and Table 3.1: the counts after each tick of a load; the tick that ends the count marks the expiry due
(notes/assumptions/4.md), and further ticks before the expiry row are lost (notes/assumptions/34.md): the model's choices. -/
def Obligations.CountAfterTicks : Prop :=
  ∀ prescale count k : Nat, 1 ≤ prescale → 1 ≤ count →
    (k < prescale * count →
      (Counter.tick prescale)^[k] (Counter.load prescale count) =
        { pre := prescale - k % prescale, main := count - k / prescale, due := false }) ∧
    (prescale * count ≤ k →
      (Counter.tick prescale)^[k] (Counter.load prescale count) = { pre := 1, main := 1, due := true })

/-- R38: a tick reaches every running tick-counted timer and nothing else. The REFCLK count is the model's
(notes/assumptions/23.md), and so is that the tick that ends a count leaves the timer running with its expiry marked due, for a
row of its own to take (notes/assumptions/4.md), and that a further tick before that row is lost (notes/assumptions/34.md). -/
def Obligations.TickReachesTimers : Prop :=
  ∀ s : State, s.resetHeld = false → ∃ t, exec .tick s = .next t ∧
    (∀ c : ChannelNo, t.channels[c] =
      { s.channels[c] with run := s.channels[c].run.map (Counter.tick s.channels[c].prescale) }) ∧
    (∀ u : Tag,
      (∀ r k, s.table[u] = some r → r.phase = .sent k → t.table[u] = some { r with phase := .sent (k.tick 10) }) ∧
      ((∀ r k, s.table[u] = some r → r.phase ≠ .sent k) → t.table[u] = s.table[u])) ∧
    (∀ p : PageNo, t.disputed p = s.disputed p ∧
      t.variant p =
        match s.variant p with
        | .mirror d r => .mirror d { r with age := r.age.map (Counter.tick 100) }
        | v => v) ∧
    (∀ x : Station,
      (∀ k, s.peers[x].state = .present k → t.peers[x] = { s.peers[x] with state := .present (k.tick 100) }) ∧
      (¬ Present s x → t.peers[x] = s.peers[x])) ∧
    t.presenceTimer = s.presenceTimer.map (Counter.tick 100) ∧
    t = { s with
          channels := t.channels, table := t.table, pages := t.pages, peers := t.peers,
          presenceTimer := t.presenceTimer, refclk := t.refclk }

/-- R46, R47 and R25: the expiry of a gathering channel queues its attached pages that have a span and leaves it IDLE; that of
a PERIOD channel queues all its attached pages FULL and loads it again. An expiry that is not due does not take place
(notes/assumptions/3.md). -/
def Obligations.ChannelExpiries : Prop :=
  ∀ (c : ChannelNo) (s : State), s.resetHeld = false →
    (∀ k, s.station = .active → s.channels[c].kind ≠ .period → s.channels[c].run = some k → k.due = true →
      exec (.gatherChannelExpiry c) s =
        .next { s with
                channels := s.channels.set c { s.channels[c] with run := none }
                publishQueue :=
                  queuedInOrder
                    (fun p => s.eligible p && decide ((s.variant p).attached = some c) && (s.variant p).hasSpan) .span
                    s.publishQueue }) ∧
    (∀ k, s.station = .active → s.channels[c].kind = .period → s.channels[c].run = some k → k.due = true →
      exec (.periodChannelExpiry c) s =
        .next { s with
                channels := s.channels.set c
                  { s.channels[c] with
                    run := some { pre := s.channels[c].prescale, main := s.channels[c].count, due := false } }
                publishQueue :=
                  queuedInOrder (fun p => s.eligible p && decide ((s.variant p).attached = some c)) .full
                    s.publishQueue }) ∧
    ((∀ k, s.channels[c].run = some k → k.due = false) →
      exec (.gatherChannelExpiry c) s = .next s ∧ exec (.periodChannelExpiry c) s = .next s)

/-- R84 and R60: the expiry of a SENT entry's reply timer, by its attempt and kind. An expiry that is not due does not take place
(notes/assumptions/3.md). -/
def Obligations.ReplyTimeouts : Prop :=
  ∀ (t : Tag) (r : Request) (k : Counter) (s : State), s.resetHeld = false → s.table[t] = some r → r.phase = .sent k →
    (k.due = false → exec (.replyTimerExpiry t) s = .next s) ∧
    (k.due = true → r.attempt < s.record.retryLimit →
      exec (.replyTimerExpiry t) s =
        .next { s with
                table := s.table.set t (some { r with attempt := r.attempt + 1, phase := .queued false })
                sendOrder := s.sendOrder ++ [t] }) ∧
    (k.due = true → s.record.retryLimit ≤ r.attempt → r.kind ≠ .refresh →
      exec (.replyTimerExpiry t) s =
        .next { s with
                table := s.table.set t (some { r with phase := .failed .timeout }), flags := s.flags ||| 0x40#8 }) ∧
    (k.due = true → s.record.retryLimit ≤ r.attempt → r.kind = .refresh → ∀ d m, s.variant r.page = .mirror d m →
      m.state ≠ .empty →
      exec (.replyTimerExpiry t) s =
        .next { setVariant r.page (.mirror d { m with state := .stale, age := none, mark := .none }) s with
                table := s.table.set t none })

/-- R63 and R146: the expiry of an age counter and of the presence timer. An expiry that is not due does not take place
(notes/assumptions/3.md). -/
def Obligations.AgeAndPresenceExpiries : Prop :=
  ∀ s : State, s.resetHeld = false →
    (∀ (p : PageNo) d r k, s.variant p = .mirror d r → r.age = some k → k.due = true →
      (r.state = .fresh ∨ r.state = .gapped) →
      exec (.ageCounterExpiry p) s = .next (setVariant p (.mirror d { r with state := .stale, age := none }) s)) ∧
    (∀ (p : PageNo) d r, s.variant p = .mirror d r → (∀ k, r.age = some k → k.due = false) →
      exec (.ageCounterExpiry p) s = .next s) ∧
    (∀ k, s.presenceTimer = some k → k.due = true →
      exec .presenceTimerExpiry s = .next { s with presenceTimer := none, presenceMark := true }) ∧
    ((∀ k, s.presenceTimer = some k → k.due = false) → exec .presenceTimerExpiry s = .next s)

/-- R166, R167, R65 and R89: a station lost by silence or by its LEAVE frame. An expiry that is not due does not take place
(notes/assumptions/3.md). -/
def Obligations.PeerLost : Prop :=
  ∀ (x : Station) (s : State), s.resetHeld = false →
    (∀ k, s.peers[x].state = .present k → k.due = true →
      ∃ t, LosesOwner x
          { s with peers := s.peers.set x { s.peers[x] with state := .silent }, flags := s.flags ||| 0x20#8 } t ∧
        exec (.silenceCounterExpiry x) s = .next t) ∧
    (∀ k, s.peers[x].state = .present k → k.due = false → exec (.silenceCounterExpiry x) s = .next s) ∧
    (s.hears = true → x ≠ s.record.own → s.peers[x].state ≠ .absent →
      ∃ t, LosesOwner x
          { s with
            receiver := .resting, view := some x, accessTimer := some 0, listen := none, windowOpen := false
            peers := s.peers.set x { state := .absent, announced := none }, flags := s.flags ||| 0x20#8 } t ∧
        exec (.leaveFrame x) s = .next t) ∧
    (s.hears = true → x ≠ s.record.own → s.peers[x].state = .absent →
      exec (.leaveFrame x) s =
        .next { s with
                receiver := .resting, view := some x, accessTimer := some 0, listen := none, windowOpen := false
                peers := s.peers.set x { state := .absent, announced := none } })

/-- R58, R75 and R76: in ACTIVE, the WANTED pages whose owners are PRESENT, in rising page number, claim the FREE entries, lowest
tag first, one each, until no page qualifies or no entry is FREE. Each claim advances the tag's issue counter, allocates a
REFRESH entry QUEUED at attempt 0, turns the mark to PENDING, and appends the tag to the send order. Nothing else changes. -/
def Obligations.RefreshClaims : Prop :=
  ∀ s : State, s.resetHeld = false →
    (s.station ≠ .active → exec .refreshClaim s = .next s) ∧
    (s.station = .active → ∀ (wants : PageNo → Bool) (claims : List (PageNo × Tag)),
      (∀ p, wants p = true ↔ ∃ d r, s.variant p = .mirror d r ∧ r.mark = .wanted ∧ Present s d.owner) →
      claims = ((List.finRange 64).filter wants).zip ((List.finRange 16).filter fun u => s.table[u].isNone) →
      ∃ t, exec .refreshClaim s = .next t ∧
        t = { s with pages := t.pages, issues := t.issues, table := t.table, sendOrder := t.sendOrder } ∧
        t.sendOrder = s.sendOrder ++ claims.map Prod.snd ∧
        (∀ p u, (p, u) ∈ claims → ∃ d r, s.variant p = .mirror d r ∧ t.variant p = .mirror d { r with mark := .pending } ∧
          t.table[u] = some { kind := .refresh, owner := d.owner, page := p, offset := 0, count := 64,
                              issue := s.issues[u] + 1, attempt := 0, phase := .queued false } ∧
          t.issues[u] = s.issues[u] + 1) ∧
        (∀ p : PageNo, t.disputed p = s.disputed p ∧ (p ∉ claims.map Prod.fst → t.variant p = s.variant p)) ∧
        ∀ u : Tag, u ∉ claims.map Prod.snd → t.table[u] = s.table[u] ∧ t.issues[u] = s.issues[u])

/-! ### Frames from the line -/

/-- R118, R120, R130, R132 and R165: what every good frame of another station does, shown by the rows that do no more; a
malformed frame is counted; a frame row outside a hearing station does not take place (notes/assumptions/3.md). A station hears
while its receiver does not wait for rest and its transmitter is IDLE, and in the instant between its own start and its own first
bit (R134; notes/assumptions/32.md); it finds the own number only while IDLE (R127), and just after a REJOIN too (R158;
notes/assumptions/33.md). -/
def Obligations.GoodFramesRenewPresence : Prop :=
  ∀ s : State, s.resetHeld = false →
    (s.hears = true → ∀ x : Station, x ≠ s.record.own → ∃ g, HearsFrom x false s g ∧
      exec (.presenceFrame x) s = .next g ∧ exec (.otherTargetFrame x) s = .next g ∧
      exec (.malformedFrame (byteOf x.val)) s = .next (advance .malformed g)) ∧
    (s.hears = true → ∀ b : Byte, 31 < b.toNat →
      exec (.malformedFrame b) s =
        .next (advance .malformed
          { s with receiver := .resting, view := none, accessTimer := some 0, listen := none, windowOpen := false })) ∧
    (s.hears = true ↔ s.station ≠ .setup ∧ (∀ cause n, s.receiver ≠ .recovering cause n) ∧
      (s.transmitter = .idle ∨ OwnStart s)) ∧
    (s.findsTwin = true ↔ s.station ≠ .setup ∧ s.transmitter = .idle ∧
      ∀ cause n, s.receiver = .recovering cause n → cause = .rejoined) ∧
    (s.hears = false → ∀ (c : Instr) (b : Byte), frameSender c = some b → b ≠ byteOf s.record.own.val →
      exec c s = .next s) ∧
    (s.findsTwin = false → ∀ c : Instr,
      (c = .duplicateStationFrame ∨ frameSender c = some (byteOf s.record.own.val)) → exec c s = .next s)

/-- R54, R55 and R56: an UPDATE discarded by the page map or as old, and an UPDATE applied to a mirror. -/
def Obligations.UpdateFrames : Prop :=
  ∀ (x : Station) (p : PageNo) (v f : Byte) (ws : List Word) (s : State), s.resetHeld = false → s.hears = true →
    x ≠ s.record.own → updateWf ws = true → ∃ g, HearsFrom x false s g ∧
      (64 < f.toNat + ws.length → exec (.updateFrame x p v f ws) s = .next (advance .malformed g)) ∧
      (f.toNat + ws.length ≤ 64 →
        ((s.variant p = .none ∨ s.disputed p = true) → exec (.updateFrame x p v f ws) s = .next g) ∧
        (s.disputed p = false →
          (∀ d r, s.variant p = .own d r → exec (.updateFrame x p v f ws) s = .next (advance .oldUpdates g)) ∧
          (∀ y, (s.variant p).peerOwner = some y → y ≠ x →
            exec (.updateFrame x p v f ws) s = .next (advance .oldUpdates g)) ∧
          (∀ d, s.variant p = .fetch d → d.owner = x → exec (.updateFrame x p v f ws) s = .next g) ∧
          (MemorySound s → ∀ d r, s.variant p = .mirror d r → d.owner = x →
            (∀ st mark,
              ((r.state = .empty ∧ f = 0 ∧ ws.length = 64 ∧ st = .fresh ∧ mark = r.mark) ∨
                (r.state = .empty ∧ ¬ (f = 0 ∧ ws.length = 64) ∧ st = .gapped ∧ mark = .wanted) ∨
                (r.state ≠ .empty ∧ ∃ l, r.last = some l ∧ 1 ≤ (v - l).toNat ∧ (v - l).toNat ≤ 127 ∧
                  ((f = 0 ∧ ws.length = 64 ∧ st = .fresh ∧ mark = r.mark) ∨
                    (¬ (f = 0 ∧ ws.length = 64) ∧ (v - l).toNat = 1 ∧ r.state = .gapped ∧ st = .gapped ∧ mark = r.mark) ∨
                    (¬ (f = 0 ∧ ws.length = 64) ∧ (v - l).toNat = 1 ∧ r.state ≠ .gapped ∧ st = .fresh ∧ mark = r.mark) ∨
                    (¬ (f = 0 ∧ ws.length = 64) ∧ 2 ≤ (v - l).toNat ∧ st = .gapped ∧
                      mark = if r.mark = .none then .wanted else r.mark)))) →
              ∃ t, AppliesToMirror p d f.toNat ws v st mark g t ∧ exec (.updateFrame x p v f ws) s = .next t) ∧
            (r.state ≠ .empty → ∀ l, r.last = some l → ((v - l).toNat = 0 ∨ 128 ≤ (v - l).toNat) →
              exec (.updateFrame x p v f ws) s = .next (advance .oldUpdates g)))))

/-- R94, R95, R99 and R136: a FETCH for this station is queued, dropped with 8 answers owed, or ignored outside ACTIVE; each
opens a reply window. One taken just after the selector took the head of 8 finds 7 and is queued (R95; notes/assumptions/32.md). -/
def Obligations.FetchFrames : Prop :=
  ∀ (x : Station) (page offset count : Byte) (tag : Tag) (issue : Issue) (attempt : Byte) (s : State),
    s.resetHeld = false → s.hears = true → x ≠ s.record.own → ∃ g, HearsFrom x true s g ∧
      (s.station = .active → s.replyQueue.length < 8 →
        exec (.fetchFrame x page offset count tag issue attempt) s =
          .next { g with replyQueue := s.replyQueue ++ [.reply x tag issue attempt page offset count] }) ∧
      (s.station = .active → 8 ≤ s.replyQueue.length →
        exec (.fetchFrame x page offset count tag issue attempt) s = .next (advance .overruns g)) ∧
      (s.station ≠ .active → exec (.fetchFrame x page offset count tag issue attempt) s = .next g)

/-- R94, R95 and R102 to R106: a WRITE for this station answered from the write filter, or decided, applied if DONE, recorded
with eviction of the oldest of 8, and answered. -/
def Obligations.WriteFrames : Prop :=
  ∀ (x : Station) (page offset : Byte) (tag : Tag) (issue : Issue) (attempt : Byte) (ws : List Word) (s : State),
    s.resetHeld = false → s.hears = true → x ≠ s.record.own → writeFrameWf ws = true → ∃ g, HearsFrom x true s g ∧
      (s.station ≠ .active → exec (.writeFrame x page offset tag issue attempt ws) s = .next g) ∧
      (s.station = .active → 8 ≤ s.replyQueue.length →
        exec (.writeFrame x page offset tag issue attempt ws) s = .next (advance .overruns g)) ∧
      (s.station = .active → s.replyQueue.length < 8 →
        (∀ h, (s.filter.find? fun h => h.writer = x ∧ h.tag = tag ∧ h.issue = issue) = some h →
          exec (.writeFrame x page offset tag issue attempt ws) s =
            .next { g with replyQueue := s.replyQueue ++ [.ack x tag issue attempt h.status] }) ∧
        ((∀ h ∈ s.filter, ¬ (h.writer = x ∧ h.tag = tag ∧ h.issue = issue)) → ∀ st : RemoteStatus,
          ((63 < page.toNat ∧ st = .range) ∨
            ∃ p : PageNo, p.val = page.toNat ∧
              ((s.disputed p = true ∧ st = .disputed) ∨
                (s.disputed p = false ∧ (s.variant p).isOwn = false ∧ st = .notOwner) ∨
                (s.disputed p = false ∧ ∃ d r, s.variant p = .own d r ∧
                  (((ws.length = 0 ∨ 16 < ws.length ∨ 64 < offset.toNat + ws.length) ∧ st = .range) ∨
                    (1 ≤ ws.length ∧ ws.length ≤ 16 ∧ offset.toNat + ws.length ≤ 64 ∧
                      ((d.remoteWrites = .refuse ∧ st = .refused) ∨ (d.remoteWrites = .accept ∧ st = .done))))))) →
          ∃ w, (st ≠ .done → w = g) ∧
            (st = .done → MemorySound s → ∃ p d r u, p.val = page.toNat ∧ s.variant p = .own d r ∧
              WritesStore p offset.toNat ws g u ∧ w = if d.watch then notifyAppend p u else u) ∧
            exec (.writeFrame x page offset tag issue attempt ws) s =
              .next { w with
                      replyQueue := s.replyQueue ++ [.ack x tag issue attempt st]
                      filter :=
                        (if 8 ≤ s.filter.length then s.filter.tail else s.filter) ++
                          [{ writer := x, tag := tag, issue := issue, status := st }] }))

/-- R79, R80 and R81: a REPLY to a READ and an ACK to a WRITE that match their SENT entry, an unknown status, and late
answers. -/
def Obligations.AnswersToRequests : Prop :=
  ∀ (x : Station) (tag : Tag) (issue : Issue) (attempt status page version count : Byte) (ws : List Word) (s : State),
    s.resetHeld = false → s.hears = true → x ≠ s.record.own → replyWf status count ws = true →
    ∃ g, HearsFrom x false s g ∧
      (4 < status.toNat →
        exec (.replyFrame x tag issue attempt status page version count ws) s = .next (advance .malformed g) ∧
        exec (.ackFrame x tag issue attempt status) s = .next (advance .malformed g)) ∧
      (∀ st : RemoteStatus, remoteCode st = status →
        (∀ r k, s.table[tag] = some r → r.phase = .sent k → r.owner = x → r.issue = issue → r.attempt = attempt.toNat →
          (r.kind = .read → r.page.val = page.toNat →
            (st = .done → ws.length = r.count →
              exec (.replyFrame x tag issue attempt status page version count ws) s =
                .next { g with
                        table := s.table.set tag (some { r with phase := .done .done (some (version, ws)) })
                        flags := g.flags ||| 0x40#8 }) ∧
            (st = .done → ws.length ≠ r.count →
              exec (.replyFrame x tag issue attempt status page version count ws) s = .next (advance .malformed g)) ∧
            (st ≠ .done →
              exec (.replyFrame x tag issue attempt status page version count ws) s =
                .next { g with
                        table := s.table.set tag (some { r with phase := .done st none })
                        flags := g.flags ||| 0x40#8 })) ∧
          (∀ words, r.kind = .write words →
            exec (.ackFrame x tag issue attempt status) s =
              .next { g with
                      table := s.table.set tag (some { r with phase := .done st none })
                      flags := g.flags ||| 0x40#8 })) ∧
        ((∀ r k, s.table[tag] = some r → r.phase = .sent k → r.owner = x → r.issue = issue →
            r.attempt = attempt.toNat → r.page.val = page.toNat → ∃ words, r.kind = .write words) →
          exec (.replyFrame x tag issue attempt status page version count ws) s = .next (advance .lateReplies g)) ∧
        ((∀ r k, s.table[tag] = some r → r.phase = .sent k → r.owner = x → r.issue = issue →
            r.attempt = attempt.toNat → ∀ words, r.kind ≠ .write words) →
          exec (.ackFrame x tag issue attempt status) s = .next (advance .lateReplies g)))

/-- R59, R60 and R82: a REPLY that matches a SENT REFRESH entry is applied, discarded as older, or ends the refresh; the entry
becomes FREE in the same change. -/
def Obligations.RefreshReplies : Prop :=
  ∀ (tag : Tag) (attempt status version count : Byte) (ws : List Word) (r : Request) (k : Counter) (d : MirrorDesc)
    (m : MirrorRun) (l : Byte) (s : State),
    s.resetHeld = false → s.hears = true → d.owner ≠ s.record.own → MemorySound s → replyWf status count ws = true →
    s.table[tag] = some r → r.phase = .sent k → r.kind = .refresh → r.owner = d.owner → r.attempt = attempt.toNat →
    s.variant r.page = .mirror d m → m.state ≠ .empty → m.last = some l → status.toNat ≤ 4 →
    ∃ g t, HearsFrom d.owner false s g ∧
      exec (.replyFrame d.owner tag r.issue attempt status (byteOf r.page.val) version count ws) s =
        .next { t with table := s.table.set tag none } ∧
      (status = 0 → ws.length = 64 → (version - l).toNat ≤ 127 →
        AppliesToMirror r.page d 0 ws version .fresh .none g t) ∧
      (status = 0 → ws.length = 64 → 128 ≤ (version - l).toNat →
        t = advance .oldUpdates (setVariant r.page (.mirror d { m with mark := .none }) g)) ∧
      (status = 0 → ws.length ≠ 64 →
        t = advance .malformed (setVariant r.page (.mirror d { m with state := .stale, age := none, mark := .none }) g)) ∧
      (status ≠ 0 → t = setVariant r.page (.mirror d { m with state := .stale, age := none, mark := .none }) g)

/-- R168, R169 and R170: an ANNOUNCE of ring size N is recorded and checked for disputes; a JOIN-flagged one empties mirrors,
purges the filter and, in ACTIVE, asks for a response and a welcome publication; another ring size outside JOINING is counted
and renews presence alone. -/
def Obligations.AnnounceFrames : Prop :=
  ∀ (x : Station) (j : Bool) (ring silence : Byte) (owned : PageSet) (s : State), s.resetHeld = false →
    s.hears = true → x ≠ s.record.own → ∃ g, HearsFrom x false s g ∧
      (ring.toNat ≠ s.record.ring → s.station ≠ .joining →
        exec (.announceFrame x j ring silence owned) s = .next (advance .malformed g)) ∧
      (ring.toNat = s.record.ring → ∀ newly : PageNo → Bool,
        (∀ p, newly p = true ↔ s.disputed p = false ∧
          (((s.variant p).isOwn = true ∧ owned.getLsbD p.val = true) ∨
            (∃ y, (s.variant p).peerOwner = some y ∧ y ≠ x ∧ owned.getLsbD p.val = true) ∨
            ((s.variant p).peerOwner = some x ∧ owned.getLsbD p.val = false))) →
        ∀ freed : Request → Bool,
          (∀ r, freed r = true ↔ r.isOpen = true ∧ r.isRefresh = true ∧ (newly r.page = true ∨ (j = true ∧ r.owner = x))) →
          ∃ t, exec (.announceFrame x j ring silence owned) s = .next t ∧
            (∀ y : Station, t.peers[y] =
              if y = x then { g.peers[x] with announced := some (owned, silence) } else s.peers[y]) ∧
            (∀ p : PageNo, t.disputed p = (s.disputed p || newly p) ∧
              t.variant p =
                match s.variant p with
                | .mirror d r =>
                  if j = true ∧ d.owner = x then .mirror d { state := .empty, last := none, age := none, mark := .none }
                  else if newly p then .mirror d { r with mark := .none }
                  else .mirror d r
                | v => v) ∧
            (∀ u : Tag, t.table[u] = s.table[u].bind fun r => if freed r then none else some r) ∧
            t.sendOrder = s.sendOrder.filter (fun u => !(s.table[u].any freed)) ∧
            t.buffer =
              (s.buffer.bind fun f =>
                if (match f.origin with
                    | .update p => newly p
                    | .request u => s.table[u].any fun r => freed r && r.isFramed
                    | _ => false) then
                  (if f.driven then some { f with discard := true } else none)
                else some f) ∧
            t.flags = (if ∃ p, newly p = true then g.flags ||| 0x10#8 else g.flags) ∧
            t.publishQueue =
              (if j = true ∧ s.station = .active then
                queuedInOrder (fun p => s.eligible p && !newly p) .full (s.publishQueue.filter fun e => !newly e.1)
              else s.publishQueue.filter fun e => !newly e.1) ∧
            t.filter = (if j then s.filter.filter fun h => h.writer ≠ x else s.filter) ∧
            t.responseMark = (s.responseMark || (j && s.station = .active)) ∧
            t = { g with
                  peers := t.peers, pages := t.pages, table := t.table, sendOrder := t.sendOrder, buffer := t.buffer,
                  flags := t.flags, publishQueue := t.publishQueue, filter := t.filter,
                  responseMark := t.responseMark })

/-- R117, R118, R128, R132 and R135: activity start at rest, in a frame and while the receiver waits for rest, which it delays; a
frame found broken, whose rest goes on from the recessive bits already read; the end of a broken frame, the end of the rest after
entry to JOINING, and the end of the listen period. The row's count of those bits (notes/assumptions/19.md), the listen counts
of 0, that count and 10 (notes/assumptions/27.md) and the mark of a REJOIN (notes/assumptions/33.md) are the model's reading. -/
def Obligations.ReceiverReports : Prop :=
  ∀ s : State, s.resetHeld = false → s.station ≠ .setup →
    (s.receiver = .resting →
      exec .activityStart s =
        .next { s with receiver := .receiving, accessTimer := none, windowOpen := false,
                       listen := s.listen.map fun _ => 0 }) ∧
    (s.receiver = .receiving → exec .activityStart s = .next { s with listen := s.listen.map fun _ => 0 }) ∧
    (∀ cause n, s.receiver = .recovering cause n →
      exec .activityStart s =
        .next { s with receiver := .recovering (if cause = .rejoined then .joining else cause) 0
                       listen := s.listen.map fun _ => 0 }) ∧
    (∀ why quiet, (s.receiver = .resting ∨ s.receiver = .receiving) →
      (why = .shortFrame quiet ∨ why = .crcError quiet ∨
        (quiet = 0 ∧ (why = .badStartPattern ∨ why = .badStopBit ∨ why = .jam))) →
      exec (.frameFoundBroken why) s =
        .next { s with receiver := .recovering .brokenFrame quiet, accessTimer := none, windowOpen := false,
                       listen := s.listen.map fun _ => quiet }) ∧
    (∀ why cause n, s.receiver = .recovering cause n → exec (.frameFoundBroken why) s = .next s) ∧
    (∀ n, s.receiver = .recovering .brokenFrame n → s.transmitter = .idle →
      exec .brokenFrameEnd s =
        .next (advance .broken
          { s with receiver := .resting, view := none, windowOpen := false
                   accessTimer := if s.listen = none then some 10 else none
                   listen := s.listen.map fun _ => 10 })) ∧
    (∀ cause n, s.receiver = .recovering cause n → cause ≠ .brokenFrame →
      exec .recoveringEnd s = .next { s with receiver := .resting, listen := s.listen.map fun _ => 10 }) ∧
    (∀ n, s.station = .joining → s.listen = some n → s.receiver = .resting →
      exec .listenPeriodEnd s = .next { s with listen := none, accessTimer := some 0, view := none })

/-! ### Turns on the line -/

/-- R131 and Table 8.2. -/
def Obligations.RankInRotation : Prop :=
  ∀ (own : Station) (n : Nat), own.val < n → n ≤ 32 →
    rank own n none = own.val ∧ (∀ v, rank own n v < n) ∧
    (∀ l : Station, ((rank own n (some l) : Nat) : Int) = ((own.val : Int) - (l.val : Int) - 1) % (n : Int)) ∧
    (∀ (other : Station) v, other.val < n → rank own n v = rank other n v → own = other) ∧
    rank own n (some own) = n - 1 ∧
    (∀ l : Station, own.val = (l.val + 1) % n → rank own n (some l) = 0)

/-- R137, R138, R139 and R141: a rotation slot in JOINING, LEAVING, MUTED or with a held frame, and the owned set that an
ANNOUNCE carries. The row itself brings the timer to the slot's count (notes/assumptions/2.md). That a row with the access timer
STOPPED leaves the state, and one with the transmitter at work passes, is the model's reading (notes/assumptions/3.md). -/
def Obligations.RotationSlots : Prop :=
  ∀ s : State, s.resetHeld = false →
    (∀ p : PageNo, s.ownedSet.getLsbD p.val = (s.variant p).isOwn) ∧
    (s.accessTimer = none → exec .rotationSlot s = .next s) ∧
    ∀ n slot : Nat, s.accessTimer = some n → slot = 12 + 8 * (rank s.record.own s.record.ring s.view + 1) →
      ∃ a, a = { s with accessTimer := some (if slot = 12 + s.record.ring * 8 then 12 else slot), windowOpen := false } ∧
        ((s.station = .muted ∨ s.transmitter ≠ .idle) → exec .rotationSlot s = .next a) ∧
        (s.transmitter = .idle → (s.station = .joining ∨ s.station = .active ∨ s.station = .leaving) → ∀ f,
          s.buffer = some f →
          exec .rotationSlot s = .next { a with buffer := some { f with driven := true }, transmitter := .sending 0 }) ∧
        (s.transmitter = .idle → s.buffer = none → s.station = .joining →
          exec .rotationSlot s =
            .next { a with
                    transmitter := .sending 0
                    buffer := some
                      { origin := .joinAnnounce, driven := true, discard := false
                        frame :=
                          { sender := byteOf s.record.own.val, target := 0xFF#8
                            body := .announce true (byteOf s.record.ring) (byteOf s.record.silence) s.ownedSet } } }) ∧
        (s.transmitter = .idle → s.buffer = none → s.station = .leaving →
          exec .rotationSlot s =
            .next { a with
                    transmitter := .sending 0
                    buffer := some
                      { origin := .leave, driven := true, discard := false
                        frame := { sender := byteOf s.record.own.val, target := 0xFF#8, body := .leave } } })

/-- R138, R139, R140, R30, R77, R97 and R100: the order of choice at a rotation slot in ACTIVE with the transmit buffer empty, and
the frame each choice builds. The row itself brings the timer to the slot's count and ends a reply window not yet come
(notes/assumptions/2.md). -/
def Obligations.ActiveSlotChoice : Prop :=
  ∀ (n slot : Nat) (s : State), s.resetHeld = false → s.station = .active → s.transmitter = .idle → s.buffer = none →
    s.accessTimer = some n → slot = 12 + 8 * (rank s.record.own s.record.ring s.view + 1) →
    ∃ a : State,
      a = { s with accessTimer := some (if slot = 12 + s.record.ring * 8 then 12 else slot), windowOpen := false } ∧
      (s.responseMark = true →
        exec .rotationSlot s =
          .next (startFrame .responseAnnounce (s.frame 0xFF#8
            (.announce false (byteOf s.record.ring) (byteOf s.record.silence) s.ownedSet))
            { a with responseMark := false })) ∧
      (s.responseMark = false →
        (∀ e rest x body, s.replyQueue = e :: rest → AnswerIs s e x body →
          exec .rotationSlot s =
            .next (startFrame .answer (s.frame (byteOf x.val) body) { a with replyQueue := rest })) ∧
        (s.replyQueue = [] →
          (∀ u rest r, s.sendOrder = u :: rest → s.table[u] = some r → ∀ body : FrameBody,
            ((∃ ws, r.kind = .write ws ∧
                body = .write (byteOf r.page.val) (byteOf r.offset) u r.issue (byteOf r.attempt) ws) ∨
              ((r.kind = .read ∨ r.kind = .refresh) ∧
                body = .fetch (byteOf r.page.val) (byteOf r.offset) (byteOf r.count) u r.issue (byteOf r.attempt))) →
            exec .rotationSlot s =
              .next (startFrame (.request u) (s.frame (byteOf r.owner.val) body)
                { a with table := s.table.set u (some { r with phase := .queued true }), sendOrder := rest })) ∧
          (s.sendOrder = [] →
            (∀ p x rest d r, s.publishQueue = (p, x) :: rest → s.variant p = .own d r → ∀ first count : Nat,
              ((x = .full ∧ first = 0 ∧ count = 64) ∨
                ∃ sp, x = .span ∧ r.span = some sp ∧ first = sp.low ∧ count = sp.high + 1 - sp.low) →
              exec .rotationSlot s =
                .next (startFrame (.update p) (s.frame 0xFF#8
                  (.update (byteOf p.val) (r.version + 1) (byteOf first)
                    ((List.range count).map fun i => s.word p (first + i))))
                  { setVariant p (.own d { version := r.version + 1, span := none }) a with publishQueue := rest })) ∧
            (s.publishQueue = [] →
              (s.presenceMark = true → exec .rotationSlot s = .next (startFrame .presence (s.frame 0xFF#8 .presence) a)) ∧
              (s.presenceMark = false → exec .rotationSlot s = .next a)))))

/-- R97, R100 and R136: the reply window, and the frame of the answer at the head of the reply queue. The row itself brings the
timer to Q (notes/assumptions/2.md). -/
def Obligations.ReplyWindowAnswers : Prop :=
  ∀ (n : Nat) (s : State), s.resetHeld = false → s.windowOpen = true → s.accessTimer = some n →
    ((s.station ≠ .active ∨ s.buffer ≠ none ∨ s.replyQueue = []) →
      exec .replyWindow s = .next { s with accessTimer := some 12, windowOpen := false }) ∧
    (s.station = .active → s.buffer = none → s.transmitter = .idle → ∀ e rest, s.replyQueue = e :: rest →
      ∀ (x : Station) (body : FrameBody), AnswerIs s e x body →
        exec .replyWindow s =
          .next { s with
                  accessTimer := some 12, windowOpen := false, replyQueue := rest, transmitter := .sending 0
                  buffer := some { origin := .answer, driven := true, discard := false
                                   frame := { sender := byteOf s.record.own.val, target := byteOf x.val, body := body } } })

/-- R110, R122, R142 and R144: a mismatch starts the jam, an abort below the eighth holds the frame or removes one marked for
discard, and the line pins by the state of the transmitter. LTX in the rest of the mismatched bit and the
station's own receiver after its jam are the model's reading (notes/assumptions/17.md and 6.md), and so is that a mismatch row
outside SENDING and an abort row outside JAMMING leave the state (notes/assumptions/3.md). -/
def Obligations.MismatchAndAbort : Prop :=
  ∀ s : State, s.resetHeld = false →
    (∀ n, s.transmitter = .sending n → exec .readbackMismatch s = .next { s with transmitter := .jamming 0 }) ∧
    ((∀ n, s.transmitter ≠ .sending n) → exec .readbackMismatch s = .next s) ∧
    (∀ n, s.transmitter = .jamming n → s.abortCount < 7 →
      exec .abort s =
        .next { s with
                transmitter := .idle, receiver := .recovering .brokenFrame 0, accessTimer := none, windowOpen := false
                listen := s.listen.map fun _ => 0, abortCount := s.abortCount + 1
                buffer := s.buffer.bind fun f => if f.discard then none else some { f with driven := false } }) ∧
    ((∀ n, s.transmitter ≠ .jamming n) → exec .abort s = .next s) ∧
    (s.transmitter = .idle → s.lde = false ∧ s.ltx = true) ∧
    (∀ n, s.transmitter = .jamming n → s.lde = true ∧ (s.ltx = true ↔ n = 0)) ∧
    (∀ n f, s.transmitter = .sending n → s.buffer = some f → s.lde = true ∧ s.ltx = f.frame.lineBits.getD n true)

/-- R124, R156, R27, R47, R78 and R146: the completion of the JOIN ANNOUNCE makes the station ACTIVE, that of a request frame its
entry SENT; every completion empties the buffer and restarts the turn, that of a request frame marked for discard, in ACTIVE or
LEAVING, among them (R88, R143). That the claims of entry to ACTIVE are those of the
refresh-claim row is the model's reading (notes/assumptions/12.md). -/
def Obligations.Completions : Prop :=
  ∀ (n : Nat) (f : TxFrame) (s : State), s.resetHeld = false → s.transmitter = .sending n → s.buffer = some f →
    ∃ c, c = { s with
               receiver := .resting, view := some s.record.own, accessTimer := some 0, listen := none,
               windowOpen := false, transmitter := .idle, buffer := none, abortCount := 0, presenceMark := false } ∧
      (f.origin = .joinAnnounce → s.station = .joining → ∃ u t,
        exec .completion s = .next t ∧ exec .refreshClaim u = .next t ∧
        (∀ h : ChannelNo, u.channels[h] =
          if s.channels[h].kind = .period then
            { s.channels[h] with
              run := some { pre := s.channels[h].prescale, main := s.channels[h].count, due := false } }
          else s.channels[h]) ∧
        u = { c with
              station := .active, flags := s.flags ||| 0x01#8, channels := u.channels
              presenceTimer := some { pre := 100, main := s.record.silence / 2, due := false }
              publishQueue := queuedInOrder s.eligible .full s.publishQueue }) ∧
      (s.station = .active →
        ∃ a, a = { c with presenceTimer := some { pre := 100, main := s.record.silence / 2, due := false } } ∧
          ((f.origin = .responseAnnounce ∨ f.origin = .presence ∨ f.origin = .answer ∨ ∃ p, f.origin = .update p) →
            exec .completion s = .next a) ∧
          (∀ t r, f.origin = .request t → s.table[t] = some r → r.phase = .queued true →
            exec .completion s =
              .next { a with
                      table := s.table.set t (some
                        { r with phase := .sent { pre := 10, main := s.record.replyTimeout, due := false } }) }) ∧
          (∀ t, f.origin = .request t → (∀ r, s.table[t] = some r → r.phase ≠ .queued true) →
            exec .completion s = .next a)) ∧
      (s.station = .leaving →
        (f.origin = .responseAnnounce ∨ f.origin = .presence ∨ f.origin = .answer ∨ (∃ p, f.origin = .update p) ∨
          ∃ t, f.origin = .request t ∧ ∀ r, s.table[t] = some r → r.phase ≠ .queued true) →
        exec .completion s = .next c)

/-! ### Bits and bytes -/

/-- Decoding and encoding of host transactions agree (R171, R172, R173, R176, R178): every well-formed host command is read back
from its bytes, whatever the host clocks after them, and every transaction is the bytes of one well-formed command and bytes
that are ignored. MISO carries nothing with CSn high, 00h up to the decision instant and where there is none, then the status
byte, the result bytes and 00h, each byte most significant bit first (R171). -/
def Obligations.TransactionRoundTrip : Prop :=
  (∀ (c : Instr) (t : Transaction), c.wf = true → encodeTransaction c = some t →
    decodeTransaction t = c ∧
    ((∀ u, c ≠ .transactionDiscarded u) → t.sawReset = false ∧
      ∀ more, decodeTransaction { t with bytes := t.bytes ++ more } = c)) ∧
  (∀ t : Transaction, (decodeTransaction t).wf = true ∧
    ∃ used ignored, t.bytes = used ++ ignored ∧
      encodeTransaction (decodeTransaction t) = some { t with bytes := used }) ∧
  (∀ (c : Instr) (bytes : List Byte) (s t : State), c.wf = true → encodeCommand c = some bytes → s.resetHeld = false →
    exec c s = .next t → ∃ status results, t.response = status :: results ∧
      (∀ n, n < bytes.length → misoByte false (some bytes.length) t.response n = some 0) ∧
      misoByte false (some bytes.length) t.response bytes.length = some status ∧
      ∀ i, misoByte false (some bytes.length) t.response (bytes.length + 1 + i) = some (results.getD i 0)) ∧
  (∀ decided response n,
    misoByte true decided response n = none ∧ misoByte false none response n = some 0) ∧
  ∀ b : Byte, (spiBits b).length = 8 ∧ ∀ i, i < 8 → (spiBits b)[i]? = some (b.getLsbD (7 - i))

/-- Decoding and encoding of frames agree (R113 to R120): a well-formed frame of another station is read back as the row of its
kind, one of the own number as a duplicate-station frame; and whatever the header, body and CRC bytes of a frame, it is malformed
exactly by the tests of R119, broken with a CRC error if the CRC differs, short where a start bit that is due is recessive, and
broken by a dominant stop bit or second start-pattern bit, from its bytes and from its levels on the line alike. How many
recessive bit times a finding carries, counted to the end of the bit it is met in, is the model's choice
(notes/assumptions/19.md); the last clause says what that count is. -/
def Obligations.FrameRoundTrip : Prop :=
  (∀ (own x : Station) (f : Frame), f.wf = true → f.sender = byteOf x.val →
    (x ≠ own → decodeLine own f.wire = bodyRow own x f.target f.body) ∧
    (x = own → decodeLine own f.wire = .duplicateStationFrame) ∧
    ∀ more, receiveLine own (f.lineBits ++ more) = decodeLine own f.wire) ∧
  (∀ (own : Station) (h0 sender target hi lo : Byte) (body bytes wire : List Byte), body.length ≤ 255 →
    bytes = h0 :: sender :: target :: byteOf body.length :: body → wire = bytes ++ [hi, lo] →
    (∀ more, receiveLine own (frameLevels wire ++ more) = decodeLine own wire) ∧
    (hi ++ lo = crcOf bytes →
      (sender = byteOf own.val → decodeLine own wire = .duplicateStationFrame) ∧
      (sender ≠ byteOf own.val →
        (decodeLine own wire = .malformedFrame sender ↔ FoundMalformed h0 sender target body))) ∧
    (hi ++ lo ≠ crcOf bytes → decodeLine own wire = .frameFoundBroken (.crcError (quietAfter wire))) ∧
    ∀ n, n < wire.length →
      decodeLine own (wire.take n) = .frameFoundBroken (.shortFrame (quietAfter (wire.take n) + 1)) ∧
      (∀ more, receiveLine own (frameLevels (wire.take n) ++ true :: more) = decodeLine own (wire.take n)) ∧
      ∀ (b : Byte) (more : List Bool),
        receiveLine own (frameLevels (wire.take n) ++ false :: byteBits b ++ false :: more) =
          .frameFoundBroken .badStopBit) ∧
  (∀ (own : Station) (more : List Bool), receiveLine own (false :: false :: more) = .frameFoundBroken .badStartPattern) ∧
  ∀ (bytes : List Byte) (levels : List Bool) (q : Nat), levels = frameLevels bytes → q = quietAfter bytes →
    q < levels.length ∧ levels[levels.length - 1 - q]? = some false ∧
    ∀ i, levels.length - q ≤ i → i < levels.length → levels[i]? = some true

/-- R113, R114 and R115: the levels of a frame, bit time by bit time, its duration, and its bytes: header, body, and the CRC that
the register of R115 holds after the last body bit, high byte first. -/
def Obligations.FrameBits : Prop :=
  ∀ f : Frame, f.lineBits.length = 2 + 10 * (6 + f.body.bytes.length) ∧ f.lineBits.take 2 = [false, true] ∧
    (∀ (i : Nat) (b : Byte), f.wire[i]? = some b →
      f.lineBits[2 + 10 * i]? = some false ∧ f.lineBits[2 + 10 * i + 9]? = some true ∧
      ∀ j, j < 8 → f.lineBits[2 + 10 * i + 1 + j]? = some (b.getLsbD j)) ∧
    (∃ h0, f.bytes = h0 :: f.sender :: f.target :: byteOf f.body.bytes.length :: f.body.bytes) ∧
    ∃ reg : Nat → BitVec 16, reg 0 = 0xFFFF#16 ∧
      (∀ (i : Nat) (b : Byte), f.bytes[i / 8]? = some b →
        reg (i + 1) =
          if (reg i).getLsbD 15 = b.getLsbD (i % 8) then reg i <<< 1 else (reg i <<< 1) ^^^ 0x1021#16) ∧
      f.wire = f.bytes ++ [(reg (8 * f.bytes.length)).extractLsb' 8 8, (reg (8 * f.bytes.length)).extractLsb' 0 8]

/-! ### Rules of the whole machine -/

/-- R7: descriptors change by hardware reset and by SET_PAGE in SETUP alone, and with them the owned set; every ANNOUNCE the
station builds carries the owned set as it stands. -/
def Obligations.DescriptorsFrozen : Prop :=
  (∀ (s : State) (p : PageNo), s.ownedSet.getLsbD p.val = (s.variant p).isOwn) ∧
  ∀ (c : Instr) (s t : State), exec c s = .next t →
    (c = .hardwareReset → ∀ p, t.variant p = .none) ∧
    (∀ page args, c = .setPage page args → ∀ p : PageNo, p.val ≠ page.toNat →
      (t.variant p).sameDescriptor (s.variant p)) ∧
    (c ≠ .hardwareReset → (∀ page args, c = .setPage page args → s.station ≠ .setup) →
      (∀ p, (t.variant p).sameDescriptor (s.variant p)) ∧ t.ownedSet = s.ownedSet) ∧
    (s.buffer = none → ∀ f j ring silence owned, t.buffer = some f → f.frame.body = .announce j ring silence owned →
      owned = s.ownedSet)

/-- R1: a word of page memory changes by hardware reset, to 0, and in operation by the four paths alone: a host WRITE of an owned
page, and what an accepted remote WRITE, an UPDATE or a refresh reply applies; it becomes the word that the path carries for it.
The words of FETCH and NONE pages change by hardware reset alone. -/
def Obligations.MemoryPaths : Prop :=
  ∀ (c : Instr) (s t : State) (p : PageNo) (o : Nat), MemorySound s → exec c s = .next t → o < 64 →
    t.word p o ≠ s.word p o →
    (c = .hardwareReset ∧ t.word p o = 0) ∨
    (∃ page offset count ws, c = .write page offset count ws ∧ s.resetHeld = false ∧ page.toNat = p.val ∧
      s.disputed p = false ∧ (s.variant p).isOwn = true ∧ 1 ≤ count.toNat ∧ count.toNat ≤ 16 ∧
      offset.toNat + count.toNat ≤ 64 ∧ offset.toNat ≤ o ∧ o < offset.toNat + count.toNat ∧
      ws[o - offset.toNat]? = some (t.word p o)) ∨
    ∃ first ws watch, AppliesWords c s p first ws watch ∧ first ≤ o ∧ ws[o - first]? = some (t.word p o)

/-- R150, Table 9.2: the station state changes at these events alone. -/
def Obligations.StationTransitions : Prop :=
  ∀ (c : Instr) (s t : State), exec c s = .next t → t.station ≠ s.station →
    (s.station = .setup ∧ c = .join ∧ t.station = .joining) ∨
    (s.station = .joining ∧ c = .completion ∧ t.station = .active ∧ ∃ f, s.buffer = some f ∧ f.origin = .joinAnnounce) ∨
    (s.station = .joining ∧ t.station = .setup ∧ ∃ x j ring silence owned,
      c = .announceFrame x j ring silence owned ∧ ring.toNat ≠ s.record.ring) ∨
    ((s.station = .joining ∨ s.station = .active) ∧ c = .abort ∧ 7 ≤ s.abortCount ∧ t.station = .muted) ∨
    ((s.station = .joining ∨ s.station = .active ∨ s.station = .leaving) ∧ t.station = .muted ∧
      (c = .duplicateStationFrame ∨ frameSender c = some (byteOf s.record.own.val))) ∨
    (s.station = .active ∧ c = .leave ∧ t.station = .leaving) ∨
    (s.station = .muted ∧ c = .leave ∧ t.station = .setup) ∨
    (s.station = .muted ∧ c = .rejoin ∧ t.station = .joining) ∨
    (s.station = .leaving ∧ c = .completion ∧ t.station = .setup ∧ ∃ f, s.buffer = some f ∧ f.origin = .leave) ∨
    (s.station = .leaving ∧ c = .abort ∧ 7 ≤ s.abortCount ∧ t.station = .setup) ∨
    ((c = .softReset ∨ c = .hardwareReset) ∧ t.station = .setup)

/-- R133: a transmission starts at a rotation slot in JOINING, ACTIVE or LEAVING, or at a reply window in ACTIVE with a
reply-queue frame, and at no other event; so a MUTED station sends nothing. -/
def Obligations.TransmissionStarts : Prop :=
  ∀ (c : Instr) (s t : State), exec c s = .next t → s.transmitter = .idle → t.transmitter ≠ .idle →
    t.transmitter = .sending 0 ∧ (∃ f, t.buffer = some f ∧ f.driven = true) ∧ s.accessTimer ≠ none ∧
    ((c = .rotationSlot ∧ (s.station = .joining ∨ s.station = .active ∨ s.station = .leaving)) ∨
      (c = .replyWindow ∧ s.station = .active ∧ s.buffer = none ∧ s.replyQueue ≠ []))

/-! ### Invariants that every step keeps -/

/-- Page memory keeps its canonical form (the model's, notes/assumptions/10.md); the notify queue, reply queue and write filter
stay within their capacities and hold nothing twice (R96, R105, R187). -/
def Obligations.CollectionsKept : Prop :=
  (∀ s t : State, MemorySound s → step s = .next t → MemorySound t) ∧
  (∀ s t : State, NotifyQueueSound s → step s = .next t → NotifyQueueSound t) ∧
  ∀ s t : State, ServiceSound s → step s = .next t → ServiceSound t

/-- Dirty spans, the publish queue and the DISPUTED flags stay as R20, R23 and R9 say they always are. -/
def Obligations.PublicationKept : Prop :=
  (∀ s t : State, SpansSound s → step s = .next t → SpansSound t) ∧
  (∀ s t : State, PublishQueueSound s → step s = .next t → PublishQueueSound t) ∧
  ∀ s t : State, DisputesSound s → step s = .next t → DisputesSound t

/-- Mirrors, request entries, the send order and refresh marks stay in step (R51, R57, R71, R72, R76, R84). -/
def Obligations.RequestsAndMirrorsKept : Prop :=
  ∀ s t : State, s.record.inRange = true → MirrorsSound s → RequestsSound s → RefreshesSound s → step s = .next t →
    t.record.inRange = true ∧ MirrorsSound t ∧ RequestsSound t ∧ RefreshesSound t

/-- Channels are IDLE outside ACTIVE and PERIOD channels count in ACTIVE (R43), the presence timer and marks rest outside ACTIVE
(R148), and in SETUP the station is off the line with every mirror EMPTY (R152). -/
def Obligations.TimersAndSetupKept : Prop :=
  (∀ s t : State, ChannelsSound s → step s = .next t → ChannelsSound t) ∧
  (∀ s t : State, PresenceSound s → step s = .next t → PresenceSound t) ∧
  ∀ s t : State, SetupQuiet s → step s = .next t → SetupQuiet t

/-- The peer table stays as R164 says: nothing recorded while ABSENT, silence counters within the limit, the own number ABSENT,
every record ABSENT in SETUP. -/
def Obligations.PeersKept : Prop :=
  ∀ s t : State, s.record.inRange = true → PeersSound s → step s = .next t → t.record.inRange = true ∧ PeersSound t

/-- The transmit buffer, the transmitter and the abort count stay as R142, R143 and R144 say. -/
def Obligations.TransmitKept : Prop :=
  ∀ s t : State, TransmitSound s → step s = .next t → TransmitSound t

/-- Every invariant above holds right after hardware reset (R163). -/
def Obligations.ResetIsSound : Prop :=
  MemorySound State.reset ∧ NotifyQueueSound State.reset ∧ ServiceSound State.reset ∧ SpansSound State.reset ∧
  PublishQueueSound State.reset ∧ DisputesSound State.reset ∧ State.reset.record.inRange = true ∧
  MirrorsSound State.reset ∧ RequestsSound State.reset ∧ RefreshesSound State.reset ∧ ChannelsSound State.reset ∧
  PresenceSound State.reset ∧ SetupQuiet State.reset ∧ PeersSound State.reset ∧ TransmitSound State.reset
end

