-- ==== Sys2Proof/Laws/State.lean ====
section
/-! SUPPORT. What each named update of the state does to each field: one lemma per field per update, true by unfolding, so
that no later proof unfolds a record update. -/

namespace Sys2Proof.Machine

variable (s : State)

/-! ### setFlag -/

@[simp] theorem setFlag_pending (e : Event) : (setFlag e s).pending = s.pending := rfl
@[simp] theorem setFlag_resetHeld (e : Event) : (setFlag e s).resetHeld = s.resetHeld := rfl
@[simp] theorem setFlag_refclk (e : Event) : (setFlag e s).refclk = s.refclk := rfl
@[simp] theorem setFlag_station (e : Event) : (setFlag e s).station = s.station := rfl
@[simp] theorem setFlag_configError (e : Event) : (setFlag e s).configError = s.configError := rfl
@[simp] theorem setFlag_mutedReason (e : Event) : (setFlag e s).mutedReason = s.mutedReason := rfl
@[simp] theorem setFlag_record (e : Event) : (setFlag e s).record = s.record := rfl
@[simp] theorem setFlag_pages (e : Event) : (setFlag e s).pages = s.pages := rfl
@[simp] theorem setFlag_memory (e : Event) : (setFlag e s).memory = s.memory := rfl
@[simp] theorem setFlag_publishQueue (e : Event) : (setFlag e s).publishQueue = s.publishQueue := rfl
@[simp] theorem setFlag_channels (e : Event) : (setFlag e s).channels = s.channels := rfl
@[simp] theorem setFlag_table (e : Event) : (setFlag e s).table = s.table := rfl
@[simp] theorem setFlag_issues (e : Event) : (setFlag e s).issues = s.issues := rfl
@[simp] theorem setFlag_sendOrder (e : Event) : (setFlag e s).sendOrder = s.sendOrder := rfl
@[simp] theorem setFlag_replyQueue (e : Event) : (setFlag e s).replyQueue = s.replyQueue := rfl
@[simp] theorem setFlag_filter (e : Event) : (setFlag e s).filter = s.filter := rfl
@[simp] theorem setFlag_peers (e : Event) : (setFlag e s).peers = s.peers := rfl
@[simp] theorem setFlag_transmitter (e : Event) : (setFlag e s).transmitter = s.transmitter := rfl
@[simp] theorem setFlag_receiver (e : Event) : (setFlag e s).receiver = s.receiver := rfl
@[simp] theorem setFlag_counters (e : Event) : (setFlag e s).counters = s.counters := rfl
@[simp] theorem setFlag_view (e : Event) : (setFlag e s).view = s.view := rfl
@[simp] theorem setFlag_accessTimer (e : Event) : (setFlag e s).accessTimer = s.accessTimer := rfl
@[simp] theorem setFlag_listen (e : Event) : (setFlag e s).listen = s.listen := rfl
@[simp] theorem setFlag_windowOpen (e : Event) : (setFlag e s).windowOpen = s.windowOpen := rfl
@[simp] theorem setFlag_buffer (e : Event) : (setFlag e s).buffer = s.buffer := rfl
@[simp] theorem setFlag_abortCount (e : Event) : (setFlag e s).abortCount = s.abortCount := rfl
@[simp] theorem setFlag_presenceTimer (e : Event) : (setFlag e s).presenceTimer = s.presenceTimer := rfl
@[simp] theorem setFlag_presenceMark (e : Event) : (setFlag e s).presenceMark = s.presenceMark := rfl
@[simp] theorem setFlag_responseMark (e : Event) : (setFlag e s).responseMark = s.responseMark := rfl
@[simp] theorem setFlag_flags (e : Event) : (setFlag e s).flags = s.flags ||| e.byte := rfl
@[simp] theorem setFlag_mask (e : Event) : (setFlag e s).mask = s.mask := rfl
@[simp] theorem setFlag_notifyEnable (e : Event) : (setFlag e s).notifyEnable = s.notifyEnable := rfl
@[simp] theorem setFlag_notify (e : Event) : (setFlag e s).notify = s.notify := rfl
@[simp] theorem setFlag_response (e : Event) : (setFlag e s).response = s.response := rfl

/-! ### clearFlags -/

@[simp] theorem clearFlags_pending (named : Byte) : (clearFlags named s).pending = s.pending := rfl
@[simp] theorem clearFlags_resetHeld (named : Byte) : (clearFlags named s).resetHeld = s.resetHeld := rfl
@[simp] theorem clearFlags_refclk (named : Byte) : (clearFlags named s).refclk = s.refclk := rfl
@[simp] theorem clearFlags_station (named : Byte) : (clearFlags named s).station = s.station := rfl
@[simp] theorem clearFlags_configError (named : Byte) : (clearFlags named s).configError = s.configError := rfl
@[simp] theorem clearFlags_mutedReason (named : Byte) : (clearFlags named s).mutedReason = s.mutedReason := rfl
@[simp] theorem clearFlags_record (named : Byte) : (clearFlags named s).record = s.record := rfl
@[simp] theorem clearFlags_pages (named : Byte) : (clearFlags named s).pages = s.pages := rfl
@[simp] theorem clearFlags_memory (named : Byte) : (clearFlags named s).memory = s.memory := rfl
@[simp] theorem clearFlags_publishQueue (named : Byte) : (clearFlags named s).publishQueue = s.publishQueue := rfl
@[simp] theorem clearFlags_channels (named : Byte) : (clearFlags named s).channels = s.channels := rfl
@[simp] theorem clearFlags_table (named : Byte) : (clearFlags named s).table = s.table := rfl
@[simp] theorem clearFlags_issues (named : Byte) : (clearFlags named s).issues = s.issues := rfl
@[simp] theorem clearFlags_sendOrder (named : Byte) : (clearFlags named s).sendOrder = s.sendOrder := rfl
@[simp] theorem clearFlags_replyQueue (named : Byte) : (clearFlags named s).replyQueue = s.replyQueue := rfl
@[simp] theorem clearFlags_filter (named : Byte) : (clearFlags named s).filter = s.filter := rfl
@[simp] theorem clearFlags_peers (named : Byte) : (clearFlags named s).peers = s.peers := rfl
@[simp] theorem clearFlags_transmitter (named : Byte) : (clearFlags named s).transmitter = s.transmitter := rfl
@[simp] theorem clearFlags_receiver (named : Byte) : (clearFlags named s).receiver = s.receiver := rfl
@[simp] theorem clearFlags_counters (named : Byte) : (clearFlags named s).counters = s.counters := rfl
@[simp] theorem clearFlags_view (named : Byte) : (clearFlags named s).view = s.view := rfl
@[simp] theorem clearFlags_accessTimer (named : Byte) : (clearFlags named s).accessTimer = s.accessTimer := rfl
@[simp] theorem clearFlags_listen (named : Byte) : (clearFlags named s).listen = s.listen := rfl
@[simp] theorem clearFlags_windowOpen (named : Byte) : (clearFlags named s).windowOpen = s.windowOpen := rfl
@[simp] theorem clearFlags_buffer (named : Byte) : (clearFlags named s).buffer = s.buffer := rfl
@[simp] theorem clearFlags_abortCount (named : Byte) : (clearFlags named s).abortCount = s.abortCount := rfl
@[simp] theorem clearFlags_presenceTimer (named : Byte) : (clearFlags named s).presenceTimer = s.presenceTimer := rfl
@[simp] theorem clearFlags_presenceMark (named : Byte) : (clearFlags named s).presenceMark = s.presenceMark := rfl
@[simp] theorem clearFlags_responseMark (named : Byte) : (clearFlags named s).responseMark = s.responseMark := rfl
@[simp] theorem clearFlags_flags (named : Byte) : (clearFlags named s).flags = s.flags &&& ~~~named := rfl
@[simp] theorem clearFlags_mask (named : Byte) : (clearFlags named s).mask = s.mask := rfl
@[simp] theorem clearFlags_notifyEnable (named : Byte) : (clearFlags named s).notifyEnable = s.notifyEnable := rfl
@[simp] theorem clearFlags_notify (named : Byte) : (clearFlags named s).notify = s.notify := rfl
@[simp] theorem clearFlags_response (named : Byte) : (clearFlags named s).response = s.response := rfl

/-! ### advance -/

@[simp] theorem advance_pending (n : CounterName) : (advance n s).pending = s.pending := rfl
@[simp] theorem advance_resetHeld (n : CounterName) : (advance n s).resetHeld = s.resetHeld := rfl
@[simp] theorem advance_refclk (n : CounterName) : (advance n s).refclk = s.refclk := rfl
@[simp] theorem advance_station (n : CounterName) : (advance n s).station = s.station := rfl
@[simp] theorem advance_configError (n : CounterName) : (advance n s).configError = s.configError := rfl
@[simp] theorem advance_mutedReason (n : CounterName) : (advance n s).mutedReason = s.mutedReason := rfl
@[simp] theorem advance_record (n : CounterName) : (advance n s).record = s.record := rfl
@[simp] theorem advance_pages (n : CounterName) : (advance n s).pages = s.pages := rfl
@[simp] theorem advance_memory (n : CounterName) : (advance n s).memory = s.memory := rfl
@[simp] theorem advance_publishQueue (n : CounterName) : (advance n s).publishQueue = s.publishQueue := rfl
@[simp] theorem advance_channels (n : CounterName) : (advance n s).channels = s.channels := rfl
@[simp] theorem advance_table (n : CounterName) : (advance n s).table = s.table := rfl
@[simp] theorem advance_issues (n : CounterName) : (advance n s).issues = s.issues := rfl
@[simp] theorem advance_sendOrder (n : CounterName) : (advance n s).sendOrder = s.sendOrder := rfl
@[simp] theorem advance_replyQueue (n : CounterName) : (advance n s).replyQueue = s.replyQueue := rfl
@[simp] theorem advance_filter (n : CounterName) : (advance n s).filter = s.filter := rfl
@[simp] theorem advance_peers (n : CounterName) : (advance n s).peers = s.peers := rfl
@[simp] theorem advance_transmitter (n : CounterName) : (advance n s).transmitter = s.transmitter := rfl
@[simp] theorem advance_receiver (n : CounterName) : (advance n s).receiver = s.receiver := rfl
@[simp] theorem advance_view (n : CounterName) : (advance n s).view = s.view := rfl
@[simp] theorem advance_accessTimer (n : CounterName) : (advance n s).accessTimer = s.accessTimer := rfl
@[simp] theorem advance_listen (n : CounterName) : (advance n s).listen = s.listen := rfl
@[simp] theorem advance_windowOpen (n : CounterName) : (advance n s).windowOpen = s.windowOpen := rfl
@[simp] theorem advance_buffer (n : CounterName) : (advance n s).buffer = s.buffer := rfl
@[simp] theorem advance_abortCount (n : CounterName) : (advance n s).abortCount = s.abortCount := rfl
@[simp] theorem advance_presenceTimer (n : CounterName) : (advance n s).presenceTimer = s.presenceTimer := rfl
@[simp] theorem advance_presenceMark (n : CounterName) : (advance n s).presenceMark = s.presenceMark := rfl
@[simp] theorem advance_responseMark (n : CounterName) : (advance n s).responseMark = s.responseMark := rfl
@[simp] theorem advance_flags (n : CounterName) : (advance n s).flags = s.flags := rfl
@[simp] theorem advance_mask (n : CounterName) : (advance n s).mask = s.mask := rfl
@[simp] theorem advance_notifyEnable (n : CounterName) : (advance n s).notifyEnable = s.notifyEnable := rfl
@[simp] theorem advance_notify (n : CounterName) : (advance n s).notify = s.notify := rfl
@[simp] theorem advance_response (n : CounterName) : (advance n s).response = s.response := rfl

/-! ### respond -/

@[simp] theorem respond_pending (st : Status) (bytes : List Byte) : (respond st bytes s).pending = s.pending := rfl
@[simp] theorem respond_resetHeld (st : Status) (bytes : List Byte) : (respond st bytes s).resetHeld = s.resetHeld := rfl
@[simp] theorem respond_refclk (st : Status) (bytes : List Byte) : (respond st bytes s).refclk = s.refclk := rfl
@[simp] theorem respond_station (st : Status) (bytes : List Byte) : (respond st bytes s).station = s.station := rfl
@[simp] theorem respond_configError (st : Status) (bytes : List Byte) : (respond st bytes s).configError = s.configError := rfl
@[simp] theorem respond_mutedReason (st : Status) (bytes : List Byte) : (respond st bytes s).mutedReason = s.mutedReason := rfl
@[simp] theorem respond_record (st : Status) (bytes : List Byte) : (respond st bytes s).record = s.record := rfl
@[simp] theorem respond_pages (st : Status) (bytes : List Byte) : (respond st bytes s).pages = s.pages := rfl
@[simp] theorem respond_memory (st : Status) (bytes : List Byte) : (respond st bytes s).memory = s.memory := rfl
@[simp] theorem respond_publishQueue (st : Status) (bytes : List Byte) : (respond st bytes s).publishQueue = s.publishQueue := rfl
@[simp] theorem respond_channels (st : Status) (bytes : List Byte) : (respond st bytes s).channels = s.channels := rfl
@[simp] theorem respond_table (st : Status) (bytes : List Byte) : (respond st bytes s).table = s.table := rfl
@[simp] theorem respond_issues (st : Status) (bytes : List Byte) : (respond st bytes s).issues = s.issues := rfl
@[simp] theorem respond_sendOrder (st : Status) (bytes : List Byte) : (respond st bytes s).sendOrder = s.sendOrder := rfl
@[simp] theorem respond_replyQueue (st : Status) (bytes : List Byte) : (respond st bytes s).replyQueue = s.replyQueue := rfl
@[simp] theorem respond_filter (st : Status) (bytes : List Byte) : (respond st bytes s).filter = s.filter := rfl
@[simp] theorem respond_peers (st : Status) (bytes : List Byte) : (respond st bytes s).peers = s.peers := rfl
@[simp] theorem respond_transmitter (st : Status) (bytes : List Byte) : (respond st bytes s).transmitter = s.transmitter := rfl
@[simp] theorem respond_receiver (st : Status) (bytes : List Byte) : (respond st bytes s).receiver = s.receiver := rfl
@[simp] theorem respond_counters (st : Status) (bytes : List Byte) : (respond st bytes s).counters = s.counters := rfl
@[simp] theorem respond_view (st : Status) (bytes : List Byte) : (respond st bytes s).view = s.view := rfl
@[simp] theorem respond_accessTimer (st : Status) (bytes : List Byte) : (respond st bytes s).accessTimer = s.accessTimer := rfl
@[simp] theorem respond_listen (st : Status) (bytes : List Byte) : (respond st bytes s).listen = s.listen := rfl
@[simp] theorem respond_windowOpen (st : Status) (bytes : List Byte) : (respond st bytes s).windowOpen = s.windowOpen := rfl
@[simp] theorem respond_buffer (st : Status) (bytes : List Byte) : (respond st bytes s).buffer = s.buffer := rfl
@[simp] theorem respond_abortCount (st : Status) (bytes : List Byte) : (respond st bytes s).abortCount = s.abortCount := rfl
@[simp] theorem respond_presenceTimer (st : Status) (bytes : List Byte) : (respond st bytes s).presenceTimer = s.presenceTimer := rfl
@[simp] theorem respond_presenceMark (st : Status) (bytes : List Byte) : (respond st bytes s).presenceMark = s.presenceMark := rfl
@[simp] theorem respond_responseMark (st : Status) (bytes : List Byte) : (respond st bytes s).responseMark = s.responseMark := rfl
@[simp] theorem respond_flags (st : Status) (bytes : List Byte) : (respond st bytes s).flags = s.flags := rfl
@[simp] theorem respond_mask (st : Status) (bytes : List Byte) : (respond st bytes s).mask = s.mask := rfl
@[simp] theorem respond_notifyEnable (st : Status) (bytes : List Byte) : (respond st bytes s).notifyEnable = s.notifyEnable := rfl
@[simp] theorem respond_notify (st : Status) (bytes : List Byte) : (respond st bytes s).notify = s.notify := rfl
@[simp] theorem respond_response (st : Status) (bytes : List Byte) : (respond st bytes s).response = st.code :: bytes := rfl

/-! ### putWords -/

@[simp] theorem putWords_pending (p : PageNo) (o : Nat) (ws : List Word) : (putWords p o ws s).pending = s.pending := rfl
@[simp] theorem putWords_resetHeld (p : PageNo) (o : Nat) (ws : List Word) : (putWords p o ws s).resetHeld = s.resetHeld := rfl
@[simp] theorem putWords_refclk (p : PageNo) (o : Nat) (ws : List Word) : (putWords p o ws s).refclk = s.refclk := rfl
@[simp] theorem putWords_station (p : PageNo) (o : Nat) (ws : List Word) : (putWords p o ws s).station = s.station := rfl
@[simp] theorem putWords_configError (p : PageNo) (o : Nat) (ws : List Word) : (putWords p o ws s).configError = s.configError := rfl
@[simp] theorem putWords_mutedReason (p : PageNo) (o : Nat) (ws : List Word) : (putWords p o ws s).mutedReason = s.mutedReason := rfl
@[simp] theorem putWords_record (p : PageNo) (o : Nat) (ws : List Word) : (putWords p o ws s).record = s.record := rfl
@[simp] theorem putWords_pages (p : PageNo) (o : Nat) (ws : List Word) : (putWords p o ws s).pages = s.pages := rfl
@[simp] theorem putWords_memory (p : PageNo) (o : Nat) (ws : List Word) : (putWords p o ws s).memory = writeCells s.memory (linear p o) ws := rfl
@[simp] theorem putWords_publishQueue (p : PageNo) (o : Nat) (ws : List Word) : (putWords p o ws s).publishQueue = s.publishQueue := rfl
@[simp] theorem putWords_channels (p : PageNo) (o : Nat) (ws : List Word) : (putWords p o ws s).channels = s.channels := rfl
@[simp] theorem putWords_table (p : PageNo) (o : Nat) (ws : List Word) : (putWords p o ws s).table = s.table := rfl
@[simp] theorem putWords_issues (p : PageNo) (o : Nat) (ws : List Word) : (putWords p o ws s).issues = s.issues := rfl
@[simp] theorem putWords_sendOrder (p : PageNo) (o : Nat) (ws : List Word) : (putWords p o ws s).sendOrder = s.sendOrder := rfl
@[simp] theorem putWords_replyQueue (p : PageNo) (o : Nat) (ws : List Word) : (putWords p o ws s).replyQueue = s.replyQueue := rfl
@[simp] theorem putWords_filter (p : PageNo) (o : Nat) (ws : List Word) : (putWords p o ws s).filter = s.filter := rfl
@[simp] theorem putWords_peers (p : PageNo) (o : Nat) (ws : List Word) : (putWords p o ws s).peers = s.peers := rfl
@[simp] theorem putWords_transmitter (p : PageNo) (o : Nat) (ws : List Word) : (putWords p o ws s).transmitter = s.transmitter := rfl
@[simp] theorem putWords_receiver (p : PageNo) (o : Nat) (ws : List Word) : (putWords p o ws s).receiver = s.receiver := rfl
@[simp] theorem putWords_counters (p : PageNo) (o : Nat) (ws : List Word) : (putWords p o ws s).counters = s.counters := rfl
@[simp] theorem putWords_view (p : PageNo) (o : Nat) (ws : List Word) : (putWords p o ws s).view = s.view := rfl
@[simp] theorem putWords_accessTimer (p : PageNo) (o : Nat) (ws : List Word) : (putWords p o ws s).accessTimer = s.accessTimer := rfl
@[simp] theorem putWords_listen (p : PageNo) (o : Nat) (ws : List Word) : (putWords p o ws s).listen = s.listen := rfl
@[simp] theorem putWords_windowOpen (p : PageNo) (o : Nat) (ws : List Word) : (putWords p o ws s).windowOpen = s.windowOpen := rfl
@[simp] theorem putWords_buffer (p : PageNo) (o : Nat) (ws : List Word) : (putWords p o ws s).buffer = s.buffer := rfl
@[simp] theorem putWords_abortCount (p : PageNo) (o : Nat) (ws : List Word) : (putWords p o ws s).abortCount = s.abortCount := rfl
@[simp] theorem putWords_presenceTimer (p : PageNo) (o : Nat) (ws : List Word) : (putWords p o ws s).presenceTimer = s.presenceTimer := rfl
@[simp] theorem putWords_presenceMark (p : PageNo) (o : Nat) (ws : List Word) : (putWords p o ws s).presenceMark = s.presenceMark := rfl
@[simp] theorem putWords_responseMark (p : PageNo) (o : Nat) (ws : List Word) : (putWords p o ws s).responseMark = s.responseMark := rfl
@[simp] theorem putWords_flags (p : PageNo) (o : Nat) (ws : List Word) : (putWords p o ws s).flags = s.flags := rfl
@[simp] theorem putWords_mask (p : PageNo) (o : Nat) (ws : List Word) : (putWords p o ws s).mask = s.mask := rfl
@[simp] theorem putWords_notifyEnable (p : PageNo) (o : Nat) (ws : List Word) : (putWords p o ws s).notifyEnable = s.notifyEnable := rfl
@[simp] theorem putWords_notify (p : PageNo) (o : Nat) (ws : List Word) : (putWords p o ws s).notify = s.notify := rfl
@[simp] theorem putWords_response (p : PageNo) (o : Nat) (ws : List Word) : (putWords p o ws s).response = s.response := rfl

/-! ### setVariant -/

@[simp] theorem setVariant_pending (p : PageNo) (v : PageVariant) : (setVariant p v s).pending = s.pending := rfl
@[simp] theorem setVariant_resetHeld (p : PageNo) (v : PageVariant) : (setVariant p v s).resetHeld = s.resetHeld := rfl
@[simp] theorem setVariant_refclk (p : PageNo) (v : PageVariant) : (setVariant p v s).refclk = s.refclk := rfl
@[simp] theorem setVariant_station (p : PageNo) (v : PageVariant) : (setVariant p v s).station = s.station := rfl
@[simp] theorem setVariant_configError (p : PageNo) (v : PageVariant) : (setVariant p v s).configError = s.configError := rfl
@[simp] theorem setVariant_mutedReason (p : PageNo) (v : PageVariant) : (setVariant p v s).mutedReason = s.mutedReason := rfl
@[simp] theorem setVariant_record (p : PageNo) (v : PageVariant) : (setVariant p v s).record = s.record := rfl
@[simp] theorem setVariant_memory (p : PageNo) (v : PageVariant) : (setVariant p v s).memory = s.memory := rfl
@[simp] theorem setVariant_publishQueue (p : PageNo) (v : PageVariant) : (setVariant p v s).publishQueue = s.publishQueue := rfl
@[simp] theorem setVariant_channels (p : PageNo) (v : PageVariant) : (setVariant p v s).channels = s.channels := rfl
@[simp] theorem setVariant_table (p : PageNo) (v : PageVariant) : (setVariant p v s).table = s.table := rfl
@[simp] theorem setVariant_issues (p : PageNo) (v : PageVariant) : (setVariant p v s).issues = s.issues := rfl
@[simp] theorem setVariant_sendOrder (p : PageNo) (v : PageVariant) : (setVariant p v s).sendOrder = s.sendOrder := rfl
@[simp] theorem setVariant_replyQueue (p : PageNo) (v : PageVariant) : (setVariant p v s).replyQueue = s.replyQueue := rfl
@[simp] theorem setVariant_filter (p : PageNo) (v : PageVariant) : (setVariant p v s).filter = s.filter := rfl
@[simp] theorem setVariant_peers (p : PageNo) (v : PageVariant) : (setVariant p v s).peers = s.peers := rfl
@[simp] theorem setVariant_transmitter (p : PageNo) (v : PageVariant) : (setVariant p v s).transmitter = s.transmitter := rfl
@[simp] theorem setVariant_receiver (p : PageNo) (v : PageVariant) : (setVariant p v s).receiver = s.receiver := rfl
@[simp] theorem setVariant_counters (p : PageNo) (v : PageVariant) : (setVariant p v s).counters = s.counters := rfl
@[simp] theorem setVariant_view (p : PageNo) (v : PageVariant) : (setVariant p v s).view = s.view := rfl
@[simp] theorem setVariant_accessTimer (p : PageNo) (v : PageVariant) : (setVariant p v s).accessTimer = s.accessTimer := rfl
@[simp] theorem setVariant_listen (p : PageNo) (v : PageVariant) : (setVariant p v s).listen = s.listen := rfl
@[simp] theorem setVariant_windowOpen (p : PageNo) (v : PageVariant) : (setVariant p v s).windowOpen = s.windowOpen := rfl
@[simp] theorem setVariant_buffer (p : PageNo) (v : PageVariant) : (setVariant p v s).buffer = s.buffer := rfl
@[simp] theorem setVariant_abortCount (p : PageNo) (v : PageVariant) : (setVariant p v s).abortCount = s.abortCount := rfl
@[simp] theorem setVariant_presenceTimer (p : PageNo) (v : PageVariant) : (setVariant p v s).presenceTimer = s.presenceTimer := rfl
@[simp] theorem setVariant_presenceMark (p : PageNo) (v : PageVariant) : (setVariant p v s).presenceMark = s.presenceMark := rfl
@[simp] theorem setVariant_responseMark (p : PageNo) (v : PageVariant) : (setVariant p v s).responseMark = s.responseMark := rfl
@[simp] theorem setVariant_flags (p : PageNo) (v : PageVariant) : (setVariant p v s).flags = s.flags := rfl
@[simp] theorem setVariant_mask (p : PageNo) (v : PageVariant) : (setVariant p v s).mask = s.mask := rfl
@[simp] theorem setVariant_notifyEnable (p : PageNo) (v : PageVariant) : (setVariant p v s).notifyEnable = s.notifyEnable := rfl
@[simp] theorem setVariant_notify (p : PageNo) (v : PageVariant) : (setVariant p v s).notify = s.notify := rfl
@[simp] theorem setVariant_response (p : PageNo) (v : PageVariant) : (setVariant p v s).response = s.response := rfl

/-! ### mapVariants -/

@[simp] theorem mapVariants_pending (f : PageNo → PageVariant → PageVariant) : (mapVariants f s).pending = s.pending := by simp only [mapVariants]
@[simp] theorem mapVariants_resetHeld (f : PageNo → PageVariant → PageVariant) : (mapVariants f s).resetHeld = s.resetHeld := by simp only [mapVariants]
@[simp] theorem mapVariants_refclk (f : PageNo → PageVariant → PageVariant) : (mapVariants f s).refclk = s.refclk := by simp only [mapVariants]
@[simp] theorem mapVariants_station (f : PageNo → PageVariant → PageVariant) : (mapVariants f s).station = s.station := by simp only [mapVariants]
@[simp] theorem mapVariants_configError (f : PageNo → PageVariant → PageVariant) : (mapVariants f s).configError = s.configError := by simp only [mapVariants]
@[simp] theorem mapVariants_mutedReason (f : PageNo → PageVariant → PageVariant) : (mapVariants f s).mutedReason = s.mutedReason := by simp only [mapVariants]
@[simp] theorem mapVariants_record (f : PageNo → PageVariant → PageVariant) : (mapVariants f s).record = s.record := by simp only [mapVariants]
@[simp] theorem mapVariants_memory (f : PageNo → PageVariant → PageVariant) : (mapVariants f s).memory = s.memory := by simp only [mapVariants]
@[simp] theorem mapVariants_publishQueue (f : PageNo → PageVariant → PageVariant) : (mapVariants f s).publishQueue = s.publishQueue := by simp only [mapVariants]
@[simp] theorem mapVariants_channels (f : PageNo → PageVariant → PageVariant) : (mapVariants f s).channels = s.channels := by simp only [mapVariants]
@[simp] theorem mapVariants_table (f : PageNo → PageVariant → PageVariant) : (mapVariants f s).table = s.table := by simp only [mapVariants]
@[simp] theorem mapVariants_issues (f : PageNo → PageVariant → PageVariant) : (mapVariants f s).issues = s.issues := by simp only [mapVariants]
@[simp] theorem mapVariants_sendOrder (f : PageNo → PageVariant → PageVariant) : (mapVariants f s).sendOrder = s.sendOrder := by simp only [mapVariants]
@[simp] theorem mapVariants_replyQueue (f : PageNo → PageVariant → PageVariant) : (mapVariants f s).replyQueue = s.replyQueue := by simp only [mapVariants]
@[simp] theorem mapVariants_filter (f : PageNo → PageVariant → PageVariant) : (mapVariants f s).filter = s.filter := by simp only [mapVariants]
@[simp] theorem mapVariants_peers (f : PageNo → PageVariant → PageVariant) : (mapVariants f s).peers = s.peers := by simp only [mapVariants]
@[simp] theorem mapVariants_transmitter (f : PageNo → PageVariant → PageVariant) : (mapVariants f s).transmitter = s.transmitter := by simp only [mapVariants]
@[simp] theorem mapVariants_receiver (f : PageNo → PageVariant → PageVariant) : (mapVariants f s).receiver = s.receiver := by simp only [mapVariants]
@[simp] theorem mapVariants_counters (f : PageNo → PageVariant → PageVariant) : (mapVariants f s).counters = s.counters := by simp only [mapVariants]
@[simp] theorem mapVariants_view (f : PageNo → PageVariant → PageVariant) : (mapVariants f s).view = s.view := by simp only [mapVariants]
@[simp] theorem mapVariants_accessTimer (f : PageNo → PageVariant → PageVariant) : (mapVariants f s).accessTimer = s.accessTimer := by simp only [mapVariants]
@[simp] theorem mapVariants_listen (f : PageNo → PageVariant → PageVariant) : (mapVariants f s).listen = s.listen := by simp only [mapVariants]
@[simp] theorem mapVariants_windowOpen (f : PageNo → PageVariant → PageVariant) : (mapVariants f s).windowOpen = s.windowOpen := by simp only [mapVariants]
@[simp] theorem mapVariants_buffer (f : PageNo → PageVariant → PageVariant) : (mapVariants f s).buffer = s.buffer := by simp only [mapVariants]
@[simp] theorem mapVariants_abortCount (f : PageNo → PageVariant → PageVariant) : (mapVariants f s).abortCount = s.abortCount := by simp only [mapVariants]
@[simp] theorem mapVariants_presenceTimer (f : PageNo → PageVariant → PageVariant) : (mapVariants f s).presenceTimer = s.presenceTimer := by simp only [mapVariants]
@[simp] theorem mapVariants_presenceMark (f : PageNo → PageVariant → PageVariant) : (mapVariants f s).presenceMark = s.presenceMark := by simp only [mapVariants]
@[simp] theorem mapVariants_responseMark (f : PageNo → PageVariant → PageVariant) : (mapVariants f s).responseMark = s.responseMark := by simp only [mapVariants]
@[simp] theorem mapVariants_flags (f : PageNo → PageVariant → PageVariant) : (mapVariants f s).flags = s.flags := by simp only [mapVariants]
@[simp] theorem mapVariants_mask (f : PageNo → PageVariant → PageVariant) : (mapVariants f s).mask = s.mask := by simp only [mapVariants]
@[simp] theorem mapVariants_notifyEnable (f : PageNo → PageVariant → PageVariant) : (mapVariants f s).notifyEnable = s.notifyEnable := by simp only [mapVariants]
@[simp] theorem mapVariants_notify (f : PageNo → PageVariant → PageVariant) : (mapVariants f s).notify = s.notify := by simp only [mapVariants]
@[simp] theorem mapVariants_response (f : PageNo → PageVariant → PageVariant) : (mapVariants f s).response = s.response := by simp only [mapVariants]

/-! ### loadChannel -/

@[simp] theorem loadChannel_pending (c : ChannelNo) : (loadChannel c s).pending = s.pending := rfl
@[simp] theorem loadChannel_resetHeld (c : ChannelNo) : (loadChannel c s).resetHeld = s.resetHeld := rfl
@[simp] theorem loadChannel_refclk (c : ChannelNo) : (loadChannel c s).refclk = s.refclk := rfl
@[simp] theorem loadChannel_station (c : ChannelNo) : (loadChannel c s).station = s.station := rfl
@[simp] theorem loadChannel_configError (c : ChannelNo) : (loadChannel c s).configError = s.configError := rfl
@[simp] theorem loadChannel_mutedReason (c : ChannelNo) : (loadChannel c s).mutedReason = s.mutedReason := rfl
@[simp] theorem loadChannel_record (c : ChannelNo) : (loadChannel c s).record = s.record := rfl
@[simp] theorem loadChannel_pages (c : ChannelNo) : (loadChannel c s).pages = s.pages := rfl
@[simp] theorem loadChannel_memory (c : ChannelNo) : (loadChannel c s).memory = s.memory := rfl
@[simp] theorem loadChannel_publishQueue (c : ChannelNo) : (loadChannel c s).publishQueue = s.publishQueue := rfl
@[simp] theorem loadChannel_channels (c : ChannelNo) : (loadChannel c s).channels = s.channels.set c s.channels[c].load := rfl
@[simp] theorem loadChannel_table (c : ChannelNo) : (loadChannel c s).table = s.table := rfl
@[simp] theorem loadChannel_issues (c : ChannelNo) : (loadChannel c s).issues = s.issues := rfl
@[simp] theorem loadChannel_sendOrder (c : ChannelNo) : (loadChannel c s).sendOrder = s.sendOrder := rfl
@[simp] theorem loadChannel_replyQueue (c : ChannelNo) : (loadChannel c s).replyQueue = s.replyQueue := rfl
@[simp] theorem loadChannel_filter (c : ChannelNo) : (loadChannel c s).filter = s.filter := rfl
@[simp] theorem loadChannel_peers (c : ChannelNo) : (loadChannel c s).peers = s.peers := rfl
@[simp] theorem loadChannel_transmitter (c : ChannelNo) : (loadChannel c s).transmitter = s.transmitter := rfl
@[simp] theorem loadChannel_receiver (c : ChannelNo) : (loadChannel c s).receiver = s.receiver := rfl
@[simp] theorem loadChannel_counters (c : ChannelNo) : (loadChannel c s).counters = s.counters := rfl
@[simp] theorem loadChannel_view (c : ChannelNo) : (loadChannel c s).view = s.view := rfl
@[simp] theorem loadChannel_accessTimer (c : ChannelNo) : (loadChannel c s).accessTimer = s.accessTimer := rfl
@[simp] theorem loadChannel_listen (c : ChannelNo) : (loadChannel c s).listen = s.listen := rfl
@[simp] theorem loadChannel_windowOpen (c : ChannelNo) : (loadChannel c s).windowOpen = s.windowOpen := rfl
@[simp] theorem loadChannel_buffer (c : ChannelNo) : (loadChannel c s).buffer = s.buffer := rfl
@[simp] theorem loadChannel_abortCount (c : ChannelNo) : (loadChannel c s).abortCount = s.abortCount := rfl
@[simp] theorem loadChannel_presenceTimer (c : ChannelNo) : (loadChannel c s).presenceTimer = s.presenceTimer := rfl
@[simp] theorem loadChannel_presenceMark (c : ChannelNo) : (loadChannel c s).presenceMark = s.presenceMark := rfl
@[simp] theorem loadChannel_responseMark (c : ChannelNo) : (loadChannel c s).responseMark = s.responseMark := rfl
@[simp] theorem loadChannel_flags (c : ChannelNo) : (loadChannel c s).flags = s.flags := rfl
@[simp] theorem loadChannel_mask (c : ChannelNo) : (loadChannel c s).mask = s.mask := rfl
@[simp] theorem loadChannel_notifyEnable (c : ChannelNo) : (loadChannel c s).notifyEnable = s.notifyEnable := rfl
@[simp] theorem loadChannel_notify (c : ChannelNo) : (loadChannel c s).notify = s.notify := rfl
@[simp] theorem loadChannel_response (c : ChannelNo) : (loadChannel c s).response = s.response := rfl

/-! ### idleChannels -/

@[simp] theorem idleChannels_pending : (idleChannels s).pending = s.pending := rfl
@[simp] theorem idleChannels_resetHeld : (idleChannels s).resetHeld = s.resetHeld := rfl
@[simp] theorem idleChannels_refclk : (idleChannels s).refclk = s.refclk := rfl
@[simp] theorem idleChannels_station : (idleChannels s).station = s.station := rfl
@[simp] theorem idleChannels_configError : (idleChannels s).configError = s.configError := rfl
@[simp] theorem idleChannels_mutedReason : (idleChannels s).mutedReason = s.mutedReason := rfl
@[simp] theorem idleChannels_record : (idleChannels s).record = s.record := rfl
@[simp] theorem idleChannels_pages : (idleChannels s).pages = s.pages := rfl
@[simp] theorem idleChannels_memory : (idleChannels s).memory = s.memory := rfl
@[simp] theorem idleChannels_publishQueue : (idleChannels s).publishQueue = s.publishQueue := rfl
@[simp] theorem idleChannels_table : (idleChannels s).table = s.table := rfl
@[simp] theorem idleChannels_issues : (idleChannels s).issues = s.issues := rfl
@[simp] theorem idleChannels_sendOrder : (idleChannels s).sendOrder = s.sendOrder := rfl
@[simp] theorem idleChannels_replyQueue : (idleChannels s).replyQueue = s.replyQueue := rfl
@[simp] theorem idleChannels_filter : (idleChannels s).filter = s.filter := rfl
@[simp] theorem idleChannels_peers : (idleChannels s).peers = s.peers := rfl
@[simp] theorem idleChannels_transmitter : (idleChannels s).transmitter = s.transmitter := rfl
@[simp] theorem idleChannels_receiver : (idleChannels s).receiver = s.receiver := rfl
@[simp] theorem idleChannels_counters : (idleChannels s).counters = s.counters := rfl
@[simp] theorem idleChannels_view : (idleChannels s).view = s.view := rfl
@[simp] theorem idleChannels_accessTimer : (idleChannels s).accessTimer = s.accessTimer := rfl
@[simp] theorem idleChannels_listen : (idleChannels s).listen = s.listen := rfl
@[simp] theorem idleChannels_windowOpen : (idleChannels s).windowOpen = s.windowOpen := rfl
@[simp] theorem idleChannels_buffer : (idleChannels s).buffer = s.buffer := rfl
@[simp] theorem idleChannels_abortCount : (idleChannels s).abortCount = s.abortCount := rfl
@[simp] theorem idleChannels_presenceTimer : (idleChannels s).presenceTimer = s.presenceTimer := rfl
@[simp] theorem idleChannels_presenceMark : (idleChannels s).presenceMark = s.presenceMark := rfl
@[simp] theorem idleChannels_responseMark : (idleChannels s).responseMark = s.responseMark := rfl
@[simp] theorem idleChannels_flags : (idleChannels s).flags = s.flags := rfl
@[simp] theorem idleChannels_mask : (idleChannels s).mask = s.mask := rfl
@[simp] theorem idleChannels_notifyEnable : (idleChannels s).notifyEnable = s.notifyEnable := rfl
@[simp] theorem idleChannels_notify : (idleChannels s).notify = s.notify := rfl
@[simp] theorem idleChannels_response : (idleChannels s).response = s.response := rfl

/-! ### setEntry -/

@[simp] theorem setEntry_pending (t : Tag) (e : Option Request) : (setEntry t e s).pending = s.pending := rfl
@[simp] theorem setEntry_resetHeld (t : Tag) (e : Option Request) : (setEntry t e s).resetHeld = s.resetHeld := rfl
@[simp] theorem setEntry_refclk (t : Tag) (e : Option Request) : (setEntry t e s).refclk = s.refclk := rfl
@[simp] theorem setEntry_station (t : Tag) (e : Option Request) : (setEntry t e s).station = s.station := rfl
@[simp] theorem setEntry_configError (t : Tag) (e : Option Request) : (setEntry t e s).configError = s.configError := rfl
@[simp] theorem setEntry_mutedReason (t : Tag) (e : Option Request) : (setEntry t e s).mutedReason = s.mutedReason := rfl
@[simp] theorem setEntry_record (t : Tag) (e : Option Request) : (setEntry t e s).record = s.record := rfl
@[simp] theorem setEntry_pages (t : Tag) (e : Option Request) : (setEntry t e s).pages = s.pages := rfl
@[simp] theorem setEntry_memory (t : Tag) (e : Option Request) : (setEntry t e s).memory = s.memory := rfl
@[simp] theorem setEntry_publishQueue (t : Tag) (e : Option Request) : (setEntry t e s).publishQueue = s.publishQueue := rfl
@[simp] theorem setEntry_channels (t : Tag) (e : Option Request) : (setEntry t e s).channels = s.channels := rfl
@[simp] theorem setEntry_table (t : Tag) (e : Option Request) : (setEntry t e s).table = s.table.set t e := rfl
@[simp] theorem setEntry_issues (t : Tag) (e : Option Request) : (setEntry t e s).issues = s.issues := rfl
@[simp] theorem setEntry_sendOrder (t : Tag) (e : Option Request) : (setEntry t e s).sendOrder = s.sendOrder := rfl
@[simp] theorem setEntry_replyQueue (t : Tag) (e : Option Request) : (setEntry t e s).replyQueue = s.replyQueue := rfl
@[simp] theorem setEntry_filter (t : Tag) (e : Option Request) : (setEntry t e s).filter = s.filter := rfl
@[simp] theorem setEntry_peers (t : Tag) (e : Option Request) : (setEntry t e s).peers = s.peers := rfl
@[simp] theorem setEntry_transmitter (t : Tag) (e : Option Request) : (setEntry t e s).transmitter = s.transmitter := rfl
@[simp] theorem setEntry_receiver (t : Tag) (e : Option Request) : (setEntry t e s).receiver = s.receiver := rfl
@[simp] theorem setEntry_counters (t : Tag) (e : Option Request) : (setEntry t e s).counters = s.counters := rfl
@[simp] theorem setEntry_view (t : Tag) (e : Option Request) : (setEntry t e s).view = s.view := rfl
@[simp] theorem setEntry_accessTimer (t : Tag) (e : Option Request) : (setEntry t e s).accessTimer = s.accessTimer := rfl
@[simp] theorem setEntry_listen (t : Tag) (e : Option Request) : (setEntry t e s).listen = s.listen := rfl
@[simp] theorem setEntry_windowOpen (t : Tag) (e : Option Request) : (setEntry t e s).windowOpen = s.windowOpen := rfl
@[simp] theorem setEntry_buffer (t : Tag) (e : Option Request) : (setEntry t e s).buffer = s.buffer := rfl
@[simp] theorem setEntry_abortCount (t : Tag) (e : Option Request) : (setEntry t e s).abortCount = s.abortCount := rfl
@[simp] theorem setEntry_presenceTimer (t : Tag) (e : Option Request) : (setEntry t e s).presenceTimer = s.presenceTimer := rfl
@[simp] theorem setEntry_presenceMark (t : Tag) (e : Option Request) : (setEntry t e s).presenceMark = s.presenceMark := rfl
@[simp] theorem setEntry_responseMark (t : Tag) (e : Option Request) : (setEntry t e s).responseMark = s.responseMark := rfl
@[simp] theorem setEntry_flags (t : Tag) (e : Option Request) : (setEntry t e s).flags = s.flags := rfl
@[simp] theorem setEntry_mask (t : Tag) (e : Option Request) : (setEntry t e s).mask = s.mask := rfl
@[simp] theorem setEntry_notifyEnable (t : Tag) (e : Option Request) : (setEntry t e s).notifyEnable = s.notifyEnable := rfl
@[simp] theorem setEntry_notify (t : Tag) (e : Option Request) : (setEntry t e s).notify = s.notify := rfl
@[simp] theorem setEntry_response (t : Tag) (e : Option Request) : (setEntry t e s).response = s.response := rfl

/-! ### allocate -/

@[simp] theorem allocate_pending (t : Tag) (k : RequestKind) (x : Station) (p : PageNo) (o n : Nat) : (allocate t k x p o n s).pending = s.pending := rfl
@[simp] theorem allocate_resetHeld (t : Tag) (k : RequestKind) (x : Station) (p : PageNo) (o n : Nat) : (allocate t k x p o n s).resetHeld = s.resetHeld := rfl
@[simp] theorem allocate_refclk (t : Tag) (k : RequestKind) (x : Station) (p : PageNo) (o n : Nat) : (allocate t k x p o n s).refclk = s.refclk := rfl
@[simp] theorem allocate_station (t : Tag) (k : RequestKind) (x : Station) (p : PageNo) (o n : Nat) : (allocate t k x p o n s).station = s.station := rfl
@[simp] theorem allocate_configError (t : Tag) (k : RequestKind) (x : Station) (p : PageNo) (o n : Nat) : (allocate t k x p o n s).configError = s.configError := rfl
@[simp] theorem allocate_mutedReason (t : Tag) (k : RequestKind) (x : Station) (p : PageNo) (o n : Nat) : (allocate t k x p o n s).mutedReason = s.mutedReason := rfl
@[simp] theorem allocate_record (t : Tag) (k : RequestKind) (x : Station) (p : PageNo) (o n : Nat) : (allocate t k x p o n s).record = s.record := rfl
@[simp] theorem allocate_pages (t : Tag) (k : RequestKind) (x : Station) (p : PageNo) (o n : Nat) : (allocate t k x p o n s).pages = s.pages := rfl
@[simp] theorem allocate_memory (t : Tag) (k : RequestKind) (x : Station) (p : PageNo) (o n : Nat) : (allocate t k x p o n s).memory = s.memory := rfl
@[simp] theorem allocate_publishQueue (t : Tag) (k : RequestKind) (x : Station) (p : PageNo) (o n : Nat) : (allocate t k x p o n s).publishQueue = s.publishQueue := rfl
@[simp] theorem allocate_channels (t : Tag) (k : RequestKind) (x : Station) (p : PageNo) (o n : Nat) : (allocate t k x p o n s).channels = s.channels := rfl
@[simp] theorem allocate_issues (t : Tag) (k : RequestKind) (x : Station) (p : PageNo) (o n : Nat) : (allocate t k x p o n s).issues = s.issues.set t (s.issues[t] + 1) := rfl
@[simp] theorem allocate_sendOrder (t : Tag) (k : RequestKind) (x : Station) (p : PageNo) (o n : Nat) : (allocate t k x p o n s).sendOrder = s.sendOrder ++ [t] := rfl
@[simp] theorem allocate_replyQueue (t : Tag) (k : RequestKind) (x : Station) (p : PageNo) (o n : Nat) : (allocate t k x p o n s).replyQueue = s.replyQueue := rfl
@[simp] theorem allocate_filter (t : Tag) (k : RequestKind) (x : Station) (p : PageNo) (o n : Nat) : (allocate t k x p o n s).filter = s.filter := rfl
@[simp] theorem allocate_peers (t : Tag) (k : RequestKind) (x : Station) (p : PageNo) (o n : Nat) : (allocate t k x p o n s).peers = s.peers := rfl
@[simp] theorem allocate_transmitter (t : Tag) (k : RequestKind) (x : Station) (p : PageNo) (o n : Nat) : (allocate t k x p o n s).transmitter = s.transmitter := rfl
@[simp] theorem allocate_receiver (t : Tag) (k : RequestKind) (x : Station) (p : PageNo) (o n : Nat) : (allocate t k x p o n s).receiver = s.receiver := rfl
@[simp] theorem allocate_counters (t : Tag) (k : RequestKind) (x : Station) (p : PageNo) (o n : Nat) : (allocate t k x p o n s).counters = s.counters := rfl
@[simp] theorem allocate_view (t : Tag) (k : RequestKind) (x : Station) (p : PageNo) (o n : Nat) : (allocate t k x p o n s).view = s.view := rfl
@[simp] theorem allocate_accessTimer (t : Tag) (k : RequestKind) (x : Station) (p : PageNo) (o n : Nat) : (allocate t k x p o n s).accessTimer = s.accessTimer := rfl
@[simp] theorem allocate_listen (t : Tag) (k : RequestKind) (x : Station) (p : PageNo) (o n : Nat) : (allocate t k x p o n s).listen = s.listen := rfl
@[simp] theorem allocate_windowOpen (t : Tag) (k : RequestKind) (x : Station) (p : PageNo) (o n : Nat) : (allocate t k x p o n s).windowOpen = s.windowOpen := rfl
@[simp] theorem allocate_buffer (t : Tag) (k : RequestKind) (x : Station) (p : PageNo) (o n : Nat) : (allocate t k x p o n s).buffer = s.buffer := rfl
@[simp] theorem allocate_abortCount (t : Tag) (k : RequestKind) (x : Station) (p : PageNo) (o n : Nat) : (allocate t k x p o n s).abortCount = s.abortCount := rfl
@[simp] theorem allocate_presenceTimer (t : Tag) (k : RequestKind) (x : Station) (p : PageNo) (o n : Nat) : (allocate t k x p o n s).presenceTimer = s.presenceTimer := rfl
@[simp] theorem allocate_presenceMark (t : Tag) (k : RequestKind) (x : Station) (p : PageNo) (o n : Nat) : (allocate t k x p o n s).presenceMark = s.presenceMark := rfl
@[simp] theorem allocate_responseMark (t : Tag) (k : RequestKind) (x : Station) (p : PageNo) (o n : Nat) : (allocate t k x p o n s).responseMark = s.responseMark := rfl
@[simp] theorem allocate_flags (t : Tag) (k : RequestKind) (x : Station) (p : PageNo) (o n : Nat) : (allocate t k x p o n s).flags = s.flags := rfl
@[simp] theorem allocate_mask (t : Tag) (k : RequestKind) (x : Station) (p : PageNo) (o n : Nat) : (allocate t k x p o n s).mask = s.mask := rfl
@[simp] theorem allocate_notifyEnable (t : Tag) (k : RequestKind) (x : Station) (p : PageNo) (o n : Nat) : (allocate t k x p o n s).notifyEnable = s.notifyEnable := rfl
@[simp] theorem allocate_notify (t : Tag) (k : RequestKind) (x : Station) (p : PageNo) (o n : Nat) : (allocate t k x p o n s).notify = s.notify := rfl
@[simp] theorem allocate_response (t : Tag) (k : RequestKind) (x : Station) (p : PageNo) (o n : Nat) : (allocate t k x p o n s).response = s.response := rfl

/-! ### setPeer -/

@[simp] theorem setPeer_pending (x : Station) (r : PeerRecord) : (setPeer x r s).pending = s.pending := rfl
@[simp] theorem setPeer_resetHeld (x : Station) (r : PeerRecord) : (setPeer x r s).resetHeld = s.resetHeld := rfl
@[simp] theorem setPeer_refclk (x : Station) (r : PeerRecord) : (setPeer x r s).refclk = s.refclk := rfl
@[simp] theorem setPeer_station (x : Station) (r : PeerRecord) : (setPeer x r s).station = s.station := rfl
@[simp] theorem setPeer_configError (x : Station) (r : PeerRecord) : (setPeer x r s).configError = s.configError := rfl
@[simp] theorem setPeer_mutedReason (x : Station) (r : PeerRecord) : (setPeer x r s).mutedReason = s.mutedReason := rfl
@[simp] theorem setPeer_record (x : Station) (r : PeerRecord) : (setPeer x r s).record = s.record := rfl
@[simp] theorem setPeer_pages (x : Station) (r : PeerRecord) : (setPeer x r s).pages = s.pages := rfl
@[simp] theorem setPeer_memory (x : Station) (r : PeerRecord) : (setPeer x r s).memory = s.memory := rfl
@[simp] theorem setPeer_publishQueue (x : Station) (r : PeerRecord) : (setPeer x r s).publishQueue = s.publishQueue := rfl
@[simp] theorem setPeer_channels (x : Station) (r : PeerRecord) : (setPeer x r s).channels = s.channels := rfl
@[simp] theorem setPeer_table (x : Station) (r : PeerRecord) : (setPeer x r s).table = s.table := rfl
@[simp] theorem setPeer_issues (x : Station) (r : PeerRecord) : (setPeer x r s).issues = s.issues := rfl
@[simp] theorem setPeer_sendOrder (x : Station) (r : PeerRecord) : (setPeer x r s).sendOrder = s.sendOrder := rfl
@[simp] theorem setPeer_replyQueue (x : Station) (r : PeerRecord) : (setPeer x r s).replyQueue = s.replyQueue := rfl
@[simp] theorem setPeer_filter (x : Station) (r : PeerRecord) : (setPeer x r s).filter = s.filter := rfl
@[simp] theorem setPeer_peers (x : Station) (r : PeerRecord) : (setPeer x r s).peers = s.peers.set x r := rfl
@[simp] theorem setPeer_transmitter (x : Station) (r : PeerRecord) : (setPeer x r s).transmitter = s.transmitter := rfl
@[simp] theorem setPeer_receiver (x : Station) (r : PeerRecord) : (setPeer x r s).receiver = s.receiver := rfl
@[simp] theorem setPeer_counters (x : Station) (r : PeerRecord) : (setPeer x r s).counters = s.counters := rfl
@[simp] theorem setPeer_view (x : Station) (r : PeerRecord) : (setPeer x r s).view = s.view := rfl
@[simp] theorem setPeer_accessTimer (x : Station) (r : PeerRecord) : (setPeer x r s).accessTimer = s.accessTimer := rfl
@[simp] theorem setPeer_listen (x : Station) (r : PeerRecord) : (setPeer x r s).listen = s.listen := rfl
@[simp] theorem setPeer_windowOpen (x : Station) (r : PeerRecord) : (setPeer x r s).windowOpen = s.windowOpen := rfl
@[simp] theorem setPeer_buffer (x : Station) (r : PeerRecord) : (setPeer x r s).buffer = s.buffer := rfl
@[simp] theorem setPeer_abortCount (x : Station) (r : PeerRecord) : (setPeer x r s).abortCount = s.abortCount := rfl
@[simp] theorem setPeer_presenceTimer (x : Station) (r : PeerRecord) : (setPeer x r s).presenceTimer = s.presenceTimer := rfl
@[simp] theorem setPeer_presenceMark (x : Station) (r : PeerRecord) : (setPeer x r s).presenceMark = s.presenceMark := rfl
@[simp] theorem setPeer_responseMark (x : Station) (r : PeerRecord) : (setPeer x r s).responseMark = s.responseMark := rfl
@[simp] theorem setPeer_flags (x : Station) (r : PeerRecord) : (setPeer x r s).flags = s.flags := rfl
@[simp] theorem setPeer_mask (x : Station) (r : PeerRecord) : (setPeer x r s).mask = s.mask := rfl
@[simp] theorem setPeer_notifyEnable (x : Station) (r : PeerRecord) : (setPeer x r s).notifyEnable = s.notifyEnable := rfl
@[simp] theorem setPeer_notify (x : Station) (r : PeerRecord) : (setPeer x r s).notify = s.notify := rfl
@[simp] theorem setPeer_response (x : Station) (r : PeerRecord) : (setPeer x r s).response = s.response := rfl

/-! ### clearPublishQueue -/

@[simp] theorem clearPublishQueue_pending : (clearPublishQueue s).pending = s.pending := rfl
@[simp] theorem clearPublishQueue_resetHeld : (clearPublishQueue s).resetHeld = s.resetHeld := rfl
@[simp] theorem clearPublishQueue_refclk : (clearPublishQueue s).refclk = s.refclk := rfl
@[simp] theorem clearPublishQueue_station : (clearPublishQueue s).station = s.station := rfl
@[simp] theorem clearPublishQueue_configError : (clearPublishQueue s).configError = s.configError := rfl
@[simp] theorem clearPublishQueue_mutedReason : (clearPublishQueue s).mutedReason = s.mutedReason := rfl
@[simp] theorem clearPublishQueue_record : (clearPublishQueue s).record = s.record := rfl
@[simp] theorem clearPublishQueue_pages : (clearPublishQueue s).pages = s.pages := rfl
@[simp] theorem clearPublishQueue_memory : (clearPublishQueue s).memory = s.memory := rfl
@[simp] theorem clearPublishQueue_publishQueue : (clearPublishQueue s).publishQueue = [] := rfl
@[simp] theorem clearPublishQueue_channels : (clearPublishQueue s).channels = s.channels := rfl
@[simp] theorem clearPublishQueue_table : (clearPublishQueue s).table = s.table := rfl
@[simp] theorem clearPublishQueue_issues : (clearPublishQueue s).issues = s.issues := rfl
@[simp] theorem clearPublishQueue_sendOrder : (clearPublishQueue s).sendOrder = s.sendOrder := rfl
@[simp] theorem clearPublishQueue_replyQueue : (clearPublishQueue s).replyQueue = s.replyQueue := rfl
@[simp] theorem clearPublishQueue_filter : (clearPublishQueue s).filter = s.filter := rfl
@[simp] theorem clearPublishQueue_peers : (clearPublishQueue s).peers = s.peers := rfl
@[simp] theorem clearPublishQueue_transmitter : (clearPublishQueue s).transmitter = s.transmitter := rfl
@[simp] theorem clearPublishQueue_receiver : (clearPublishQueue s).receiver = s.receiver := rfl
@[simp] theorem clearPublishQueue_counters : (clearPublishQueue s).counters = s.counters := rfl
@[simp] theorem clearPublishQueue_view : (clearPublishQueue s).view = s.view := rfl
@[simp] theorem clearPublishQueue_accessTimer : (clearPublishQueue s).accessTimer = s.accessTimer := rfl
@[simp] theorem clearPublishQueue_listen : (clearPublishQueue s).listen = s.listen := rfl
@[simp] theorem clearPublishQueue_windowOpen : (clearPublishQueue s).windowOpen = s.windowOpen := rfl
@[simp] theorem clearPublishQueue_buffer : (clearPublishQueue s).buffer = s.buffer := rfl
@[simp] theorem clearPublishQueue_abortCount : (clearPublishQueue s).abortCount = s.abortCount := rfl
@[simp] theorem clearPublishQueue_presenceTimer : (clearPublishQueue s).presenceTimer = s.presenceTimer := rfl
@[simp] theorem clearPublishQueue_presenceMark : (clearPublishQueue s).presenceMark = s.presenceMark := rfl
@[simp] theorem clearPublishQueue_responseMark : (clearPublishQueue s).responseMark = s.responseMark := rfl
@[simp] theorem clearPublishQueue_flags : (clearPublishQueue s).flags = s.flags := rfl
@[simp] theorem clearPublishQueue_mask : (clearPublishQueue s).mask = s.mask := rfl
@[simp] theorem clearPublishQueue_notifyEnable : (clearPublishQueue s).notifyEnable = s.notifyEnable := rfl
@[simp] theorem clearPublishQueue_notify : (clearPublishQueue s).notify = s.notify := rfl
@[simp] theorem clearPublishQueue_response : (clearPublishQueue s).response = s.response := rfl

/-! ### clearMarks -/

@[simp] theorem clearMarks_pending : (clearMarks s).pending = s.pending := rfl
@[simp] theorem clearMarks_resetHeld : (clearMarks s).resetHeld = s.resetHeld := rfl
@[simp] theorem clearMarks_refclk : (clearMarks s).refclk = s.refclk := rfl
@[simp] theorem clearMarks_station : (clearMarks s).station = s.station := rfl
@[simp] theorem clearMarks_configError : (clearMarks s).configError = s.configError := rfl
@[simp] theorem clearMarks_mutedReason : (clearMarks s).mutedReason = s.mutedReason := rfl
@[simp] theorem clearMarks_record : (clearMarks s).record = s.record := rfl
@[simp] theorem clearMarks_pages : (clearMarks s).pages = s.pages := rfl
@[simp] theorem clearMarks_memory : (clearMarks s).memory = s.memory := rfl
@[simp] theorem clearMarks_publishQueue : (clearMarks s).publishQueue = s.publishQueue := rfl
@[simp] theorem clearMarks_channels : (clearMarks s).channels = s.channels := rfl
@[simp] theorem clearMarks_table : (clearMarks s).table = s.table := rfl
@[simp] theorem clearMarks_issues : (clearMarks s).issues = s.issues := rfl
@[simp] theorem clearMarks_sendOrder : (clearMarks s).sendOrder = s.sendOrder := rfl
@[simp] theorem clearMarks_replyQueue : (clearMarks s).replyQueue = s.replyQueue := rfl
@[simp] theorem clearMarks_filter : (clearMarks s).filter = s.filter := rfl
@[simp] theorem clearMarks_peers : (clearMarks s).peers = s.peers := rfl
@[simp] theorem clearMarks_transmitter : (clearMarks s).transmitter = s.transmitter := rfl
@[simp] theorem clearMarks_receiver : (clearMarks s).receiver = s.receiver := rfl
@[simp] theorem clearMarks_counters : (clearMarks s).counters = s.counters := rfl
@[simp] theorem clearMarks_view : (clearMarks s).view = s.view := rfl
@[simp] theorem clearMarks_accessTimer : (clearMarks s).accessTimer = s.accessTimer := rfl
@[simp] theorem clearMarks_listen : (clearMarks s).listen = s.listen := rfl
@[simp] theorem clearMarks_windowOpen : (clearMarks s).windowOpen = s.windowOpen := rfl
@[simp] theorem clearMarks_buffer : (clearMarks s).buffer = s.buffer := rfl
@[simp] theorem clearMarks_abortCount : (clearMarks s).abortCount = s.abortCount := rfl
@[simp] theorem clearMarks_presenceTimer : (clearMarks s).presenceTimer = none := rfl
@[simp] theorem clearMarks_presenceMark : (clearMarks s).presenceMark = false := rfl
@[simp] theorem clearMarks_responseMark : (clearMarks s).responseMark = false := rfl
@[simp] theorem clearMarks_flags : (clearMarks s).flags = s.flags := rfl
@[simp] theorem clearMarks_mask : (clearMarks s).mask = s.mask := rfl
@[simp] theorem clearMarks_notifyEnable : (clearMarks s).notifyEnable = s.notifyEnable := rfl
@[simp] theorem clearMarks_notify : (clearMarks s).notify = s.notify := rfl
@[simp] theorem clearMarks_response : (clearMarks s).response = s.response := rfl

/-! ### loadPresenceTimer -/

@[simp] theorem loadPresenceTimer_pending : (loadPresenceTimer s).pending = s.pending := rfl
@[simp] theorem loadPresenceTimer_resetHeld : (loadPresenceTimer s).resetHeld = s.resetHeld := rfl
@[simp] theorem loadPresenceTimer_refclk : (loadPresenceTimer s).refclk = s.refclk := rfl
@[simp] theorem loadPresenceTimer_station : (loadPresenceTimer s).station = s.station := rfl
@[simp] theorem loadPresenceTimer_configError : (loadPresenceTimer s).configError = s.configError := rfl
@[simp] theorem loadPresenceTimer_mutedReason : (loadPresenceTimer s).mutedReason = s.mutedReason := rfl
@[simp] theorem loadPresenceTimer_record : (loadPresenceTimer s).record = s.record := rfl
@[simp] theorem loadPresenceTimer_pages : (loadPresenceTimer s).pages = s.pages := rfl
@[simp] theorem loadPresenceTimer_memory : (loadPresenceTimer s).memory = s.memory := rfl
@[simp] theorem loadPresenceTimer_publishQueue : (loadPresenceTimer s).publishQueue = s.publishQueue := rfl
@[simp] theorem loadPresenceTimer_channels : (loadPresenceTimer s).channels = s.channels := rfl
@[simp] theorem loadPresenceTimer_table : (loadPresenceTimer s).table = s.table := rfl
@[simp] theorem loadPresenceTimer_issues : (loadPresenceTimer s).issues = s.issues := rfl
@[simp] theorem loadPresenceTimer_sendOrder : (loadPresenceTimer s).sendOrder = s.sendOrder := rfl
@[simp] theorem loadPresenceTimer_replyQueue : (loadPresenceTimer s).replyQueue = s.replyQueue := rfl
@[simp] theorem loadPresenceTimer_filter : (loadPresenceTimer s).filter = s.filter := rfl
@[simp] theorem loadPresenceTimer_peers : (loadPresenceTimer s).peers = s.peers := rfl
@[simp] theorem loadPresenceTimer_transmitter : (loadPresenceTimer s).transmitter = s.transmitter := rfl
@[simp] theorem loadPresenceTimer_receiver : (loadPresenceTimer s).receiver = s.receiver := rfl
@[simp] theorem loadPresenceTimer_counters : (loadPresenceTimer s).counters = s.counters := rfl
@[simp] theorem loadPresenceTimer_view : (loadPresenceTimer s).view = s.view := rfl
@[simp] theorem loadPresenceTimer_accessTimer : (loadPresenceTimer s).accessTimer = s.accessTimer := rfl
@[simp] theorem loadPresenceTimer_listen : (loadPresenceTimer s).listen = s.listen := rfl
@[simp] theorem loadPresenceTimer_windowOpen : (loadPresenceTimer s).windowOpen = s.windowOpen := rfl
@[simp] theorem loadPresenceTimer_buffer : (loadPresenceTimer s).buffer = s.buffer := rfl
@[simp] theorem loadPresenceTimer_abortCount : (loadPresenceTimer s).abortCount = s.abortCount := rfl
@[simp] theorem loadPresenceTimer_presenceTimer : (loadPresenceTimer s).presenceTimer = some (Counter.load Config.ticksPerAge s.record.presenceUnits) := rfl
@[simp] theorem loadPresenceTimer_presenceMark : (loadPresenceTimer s).presenceMark = s.presenceMark := rfl
@[simp] theorem loadPresenceTimer_responseMark : (loadPresenceTimer s).responseMark = s.responseMark := rfl
@[simp] theorem loadPresenceTimer_flags : (loadPresenceTimer s).flags = s.flags := rfl
@[simp] theorem loadPresenceTimer_mask : (loadPresenceTimer s).mask = s.mask := rfl
@[simp] theorem loadPresenceTimer_notifyEnable : (loadPresenceTimer s).notifyEnable = s.notifyEnable := rfl
@[simp] theorem loadPresenceTimer_notify : (loadPresenceTimer s).notify = s.notify := rfl
@[simp] theorem loadPresenceTimer_response : (loadPresenceTimer s).response = s.response := rfl

/-! ### loadPeriodChannels -/

@[simp] theorem loadPeriodChannels_pending : (loadPeriodChannels s).pending = s.pending := rfl
@[simp] theorem loadPeriodChannels_resetHeld : (loadPeriodChannels s).resetHeld = s.resetHeld := rfl
@[simp] theorem loadPeriodChannels_refclk : (loadPeriodChannels s).refclk = s.refclk := rfl
@[simp] theorem loadPeriodChannels_station : (loadPeriodChannels s).station = s.station := rfl
@[simp] theorem loadPeriodChannels_configError : (loadPeriodChannels s).configError = s.configError := rfl
@[simp] theorem loadPeriodChannels_mutedReason : (loadPeriodChannels s).mutedReason = s.mutedReason := rfl
@[simp] theorem loadPeriodChannels_record : (loadPeriodChannels s).record = s.record := rfl
@[simp] theorem loadPeriodChannels_pages : (loadPeriodChannels s).pages = s.pages := rfl
@[simp] theorem loadPeriodChannels_memory : (loadPeriodChannels s).memory = s.memory := rfl
@[simp] theorem loadPeriodChannels_publishQueue : (loadPeriodChannels s).publishQueue = s.publishQueue := rfl
@[simp] theorem loadPeriodChannels_table : (loadPeriodChannels s).table = s.table := rfl
@[simp] theorem loadPeriodChannels_issues : (loadPeriodChannels s).issues = s.issues := rfl
@[simp] theorem loadPeriodChannels_sendOrder : (loadPeriodChannels s).sendOrder = s.sendOrder := rfl
@[simp] theorem loadPeriodChannels_replyQueue : (loadPeriodChannels s).replyQueue = s.replyQueue := rfl
@[simp] theorem loadPeriodChannels_filter : (loadPeriodChannels s).filter = s.filter := rfl
@[simp] theorem loadPeriodChannels_peers : (loadPeriodChannels s).peers = s.peers := rfl
@[simp] theorem loadPeriodChannels_transmitter : (loadPeriodChannels s).transmitter = s.transmitter := rfl
@[simp] theorem loadPeriodChannels_receiver : (loadPeriodChannels s).receiver = s.receiver := rfl
@[simp] theorem loadPeriodChannels_counters : (loadPeriodChannels s).counters = s.counters := rfl
@[simp] theorem loadPeriodChannels_view : (loadPeriodChannels s).view = s.view := rfl
@[simp] theorem loadPeriodChannels_accessTimer : (loadPeriodChannels s).accessTimer = s.accessTimer := rfl
@[simp] theorem loadPeriodChannels_listen : (loadPeriodChannels s).listen = s.listen := rfl
@[simp] theorem loadPeriodChannels_windowOpen : (loadPeriodChannels s).windowOpen = s.windowOpen := rfl
@[simp] theorem loadPeriodChannels_buffer : (loadPeriodChannels s).buffer = s.buffer := rfl
@[simp] theorem loadPeriodChannels_abortCount : (loadPeriodChannels s).abortCount = s.abortCount := rfl
@[simp] theorem loadPeriodChannels_presenceTimer : (loadPeriodChannels s).presenceTimer = s.presenceTimer := rfl
@[simp] theorem loadPeriodChannels_presenceMark : (loadPeriodChannels s).presenceMark = s.presenceMark := rfl
@[simp] theorem loadPeriodChannels_responseMark : (loadPeriodChannels s).responseMark = s.responseMark := rfl
@[simp] theorem loadPeriodChannels_flags : (loadPeriodChannels s).flags = s.flags := rfl
@[simp] theorem loadPeriodChannels_mask : (loadPeriodChannels s).mask = s.mask := rfl
@[simp] theorem loadPeriodChannels_notifyEnable : (loadPeriodChannels s).notifyEnable = s.notifyEnable := rfl
@[simp] theorem loadPeriodChannels_notify : (loadPeriodChannels s).notify = s.notify := rfl
@[simp] theorem loadPeriodChannels_response : (loadPeriodChannels s).response = s.response := rfl

/-! ### startFrame -/

@[simp] theorem startFrame_pending (o : Origin) (f : Frame) : (startFrame o f s).pending = s.pending := rfl
@[simp] theorem startFrame_resetHeld (o : Origin) (f : Frame) : (startFrame o f s).resetHeld = s.resetHeld := rfl
@[simp] theorem startFrame_refclk (o : Origin) (f : Frame) : (startFrame o f s).refclk = s.refclk := rfl
@[simp] theorem startFrame_station (o : Origin) (f : Frame) : (startFrame o f s).station = s.station := rfl
@[simp] theorem startFrame_configError (o : Origin) (f : Frame) : (startFrame o f s).configError = s.configError := rfl
@[simp] theorem startFrame_mutedReason (o : Origin) (f : Frame) : (startFrame o f s).mutedReason = s.mutedReason := rfl
@[simp] theorem startFrame_record (o : Origin) (f : Frame) : (startFrame o f s).record = s.record := rfl
@[simp] theorem startFrame_pages (o : Origin) (f : Frame) : (startFrame o f s).pages = s.pages := rfl
@[simp] theorem startFrame_memory (o : Origin) (f : Frame) : (startFrame o f s).memory = s.memory := rfl
@[simp] theorem startFrame_publishQueue (o : Origin) (f : Frame) : (startFrame o f s).publishQueue = s.publishQueue := rfl
@[simp] theorem startFrame_channels (o : Origin) (f : Frame) : (startFrame o f s).channels = s.channels := rfl
@[simp] theorem startFrame_table (o : Origin) (f : Frame) : (startFrame o f s).table = s.table := rfl
@[simp] theorem startFrame_issues (o : Origin) (f : Frame) : (startFrame o f s).issues = s.issues := rfl
@[simp] theorem startFrame_sendOrder (o : Origin) (f : Frame) : (startFrame o f s).sendOrder = s.sendOrder := rfl
@[simp] theorem startFrame_replyQueue (o : Origin) (f : Frame) : (startFrame o f s).replyQueue = s.replyQueue := rfl
@[simp] theorem startFrame_filter (o : Origin) (f : Frame) : (startFrame o f s).filter = s.filter := rfl
@[simp] theorem startFrame_peers (o : Origin) (f : Frame) : (startFrame o f s).peers = s.peers := rfl
@[simp] theorem startFrame_transmitter (o : Origin) (f : Frame) : (startFrame o f s).transmitter = .sending 0 := rfl
@[simp] theorem startFrame_receiver (o : Origin) (f : Frame) : (startFrame o f s).receiver = s.receiver := rfl
@[simp] theorem startFrame_counters (o : Origin) (f : Frame) : (startFrame o f s).counters = s.counters := rfl
@[simp] theorem startFrame_view (o : Origin) (f : Frame) : (startFrame o f s).view = s.view := rfl
@[simp] theorem startFrame_accessTimer (o : Origin) (f : Frame) : (startFrame o f s).accessTimer = s.accessTimer := rfl
@[simp] theorem startFrame_listen (o : Origin) (f : Frame) : (startFrame o f s).listen = s.listen := rfl
@[simp] theorem startFrame_windowOpen (o : Origin) (f : Frame) : (startFrame o f s).windowOpen = s.windowOpen := rfl
@[simp] theorem startFrame_buffer (o : Origin) (f : Frame) : (startFrame o f s).buffer = some { origin := o, frame := f, driven := true, discard := false } := rfl
@[simp] theorem startFrame_abortCount (o : Origin) (f : Frame) : (startFrame o f s).abortCount = s.abortCount := rfl
@[simp] theorem startFrame_presenceTimer (o : Origin) (f : Frame) : (startFrame o f s).presenceTimer = s.presenceTimer := rfl
@[simp] theorem startFrame_presenceMark (o : Origin) (f : Frame) : (startFrame o f s).presenceMark = s.presenceMark := rfl
@[simp] theorem startFrame_responseMark (o : Origin) (f : Frame) : (startFrame o f s).responseMark = s.responseMark := rfl
@[simp] theorem startFrame_flags (o : Origin) (f : Frame) : (startFrame o f s).flags = s.flags := rfl
@[simp] theorem startFrame_mask (o : Origin) (f : Frame) : (startFrame o f s).mask = s.mask := rfl
@[simp] theorem startFrame_notifyEnable (o : Origin) (f : Frame) : (startFrame o f s).notifyEnable = s.notifyEnable := rfl
@[simp] theorem startFrame_notify (o : Origin) (f : Frame) : (startFrame o f s).notify = s.notify := rfl
@[simp] theorem startFrame_response (o : Origin) (f : Frame) : (startFrame o f s).response = s.response := rfl

/-! ### oweAnswer -/

@[simp] theorem oweAnswer_pending (e : ReplyEntry) : (oweAnswer e s).pending = s.pending := rfl
@[simp] theorem oweAnswer_resetHeld (e : ReplyEntry) : (oweAnswer e s).resetHeld = s.resetHeld := rfl
@[simp] theorem oweAnswer_refclk (e : ReplyEntry) : (oweAnswer e s).refclk = s.refclk := rfl
@[simp] theorem oweAnswer_station (e : ReplyEntry) : (oweAnswer e s).station = s.station := rfl
@[simp] theorem oweAnswer_configError (e : ReplyEntry) : (oweAnswer e s).configError = s.configError := rfl
@[simp] theorem oweAnswer_mutedReason (e : ReplyEntry) : (oweAnswer e s).mutedReason = s.mutedReason := rfl
@[simp] theorem oweAnswer_record (e : ReplyEntry) : (oweAnswer e s).record = s.record := rfl
@[simp] theorem oweAnswer_pages (e : ReplyEntry) : (oweAnswer e s).pages = s.pages := rfl
@[simp] theorem oweAnswer_memory (e : ReplyEntry) : (oweAnswer e s).memory = s.memory := rfl
@[simp] theorem oweAnswer_publishQueue (e : ReplyEntry) : (oweAnswer e s).publishQueue = s.publishQueue := rfl
@[simp] theorem oweAnswer_channels (e : ReplyEntry) : (oweAnswer e s).channels = s.channels := rfl
@[simp] theorem oweAnswer_table (e : ReplyEntry) : (oweAnswer e s).table = s.table := rfl
@[simp] theorem oweAnswer_issues (e : ReplyEntry) : (oweAnswer e s).issues = s.issues := rfl
@[simp] theorem oweAnswer_sendOrder (e : ReplyEntry) : (oweAnswer e s).sendOrder = s.sendOrder := rfl
@[simp] theorem oweAnswer_replyQueue (e : ReplyEntry) : (oweAnswer e s).replyQueue = s.replyQueue ++ [e] := rfl
@[simp] theorem oweAnswer_filter (e : ReplyEntry) : (oweAnswer e s).filter = s.filter := rfl
@[simp] theorem oweAnswer_peers (e : ReplyEntry) : (oweAnswer e s).peers = s.peers := rfl
@[simp] theorem oweAnswer_transmitter (e : ReplyEntry) : (oweAnswer e s).transmitter = s.transmitter := rfl
@[simp] theorem oweAnswer_receiver (e : ReplyEntry) : (oweAnswer e s).receiver = s.receiver := rfl
@[simp] theorem oweAnswer_counters (e : ReplyEntry) : (oweAnswer e s).counters = s.counters := rfl
@[simp] theorem oweAnswer_view (e : ReplyEntry) : (oweAnswer e s).view = s.view := rfl
@[simp] theorem oweAnswer_accessTimer (e : ReplyEntry) : (oweAnswer e s).accessTimer = s.accessTimer := rfl
@[simp] theorem oweAnswer_listen (e : ReplyEntry) : (oweAnswer e s).listen = s.listen := rfl
@[simp] theorem oweAnswer_windowOpen (e : ReplyEntry) : (oweAnswer e s).windowOpen = s.windowOpen := rfl
@[simp] theorem oweAnswer_buffer (e : ReplyEntry) : (oweAnswer e s).buffer = s.buffer := rfl
@[simp] theorem oweAnswer_abortCount (e : ReplyEntry) : (oweAnswer e s).abortCount = s.abortCount := rfl
@[simp] theorem oweAnswer_presenceTimer (e : ReplyEntry) : (oweAnswer e s).presenceTimer = s.presenceTimer := rfl
@[simp] theorem oweAnswer_presenceMark (e : ReplyEntry) : (oweAnswer e s).presenceMark = s.presenceMark := rfl
@[simp] theorem oweAnswer_responseMark (e : ReplyEntry) : (oweAnswer e s).responseMark = s.responseMark := rfl
@[simp] theorem oweAnswer_flags (e : ReplyEntry) : (oweAnswer e s).flags = s.flags := rfl
@[simp] theorem oweAnswer_mask (e : ReplyEntry) : (oweAnswer e s).mask = s.mask := rfl
@[simp] theorem oweAnswer_notifyEnable (e : ReplyEntry) : (oweAnswer e s).notifyEnable = s.notifyEnable := rfl
@[simp] theorem oweAnswer_notify (e : ReplyEntry) : (oweAnswer e s).notify = s.notify := rfl
@[simp] theorem oweAnswer_response (e : ReplyEntry) : (oweAnswer e s).response = s.response := rfl

/-! ### goodEnd -/

@[simp] theorem goodEnd_pending (v : Option Station) (w : Bool) : (goodEnd v w s).pending = s.pending := rfl
@[simp] theorem goodEnd_resetHeld (v : Option Station) (w : Bool) : (goodEnd v w s).resetHeld = s.resetHeld := rfl
@[simp] theorem goodEnd_refclk (v : Option Station) (w : Bool) : (goodEnd v w s).refclk = s.refclk := rfl
@[simp] theorem goodEnd_station (v : Option Station) (w : Bool) : (goodEnd v w s).station = s.station := rfl
@[simp] theorem goodEnd_configError (v : Option Station) (w : Bool) : (goodEnd v w s).configError = s.configError := rfl
@[simp] theorem goodEnd_mutedReason (v : Option Station) (w : Bool) : (goodEnd v w s).mutedReason = s.mutedReason := rfl
@[simp] theorem goodEnd_record (v : Option Station) (w : Bool) : (goodEnd v w s).record = s.record := rfl
@[simp] theorem goodEnd_pages (v : Option Station) (w : Bool) : (goodEnd v w s).pages = s.pages := rfl
@[simp] theorem goodEnd_memory (v : Option Station) (w : Bool) : (goodEnd v w s).memory = s.memory := rfl
@[simp] theorem goodEnd_publishQueue (v : Option Station) (w : Bool) : (goodEnd v w s).publishQueue = s.publishQueue := rfl
@[simp] theorem goodEnd_channels (v : Option Station) (w : Bool) : (goodEnd v w s).channels = s.channels := rfl
@[simp] theorem goodEnd_table (v : Option Station) (w : Bool) : (goodEnd v w s).table = s.table := rfl
@[simp] theorem goodEnd_issues (v : Option Station) (w : Bool) : (goodEnd v w s).issues = s.issues := rfl
@[simp] theorem goodEnd_sendOrder (v : Option Station) (w : Bool) : (goodEnd v w s).sendOrder = s.sendOrder := rfl
@[simp] theorem goodEnd_replyQueue (v : Option Station) (w : Bool) : (goodEnd v w s).replyQueue = s.replyQueue := rfl
@[simp] theorem goodEnd_filter (v : Option Station) (w : Bool) : (goodEnd v w s).filter = s.filter := rfl
@[simp] theorem goodEnd_peers (v : Option Station) (w : Bool) : (goodEnd v w s).peers = s.peers := rfl
@[simp] theorem goodEnd_transmitter (v : Option Station) (w : Bool) : (goodEnd v w s).transmitter = s.transmitter := rfl
@[simp] theorem goodEnd_receiver (v : Option Station) (w : Bool) : (goodEnd v w s).receiver = .resting := rfl
@[simp] theorem goodEnd_counters (v : Option Station) (w : Bool) : (goodEnd v w s).counters = s.counters := rfl
@[simp] theorem goodEnd_view (v : Option Station) (w : Bool) : (goodEnd v w s).view = v := rfl
@[simp] theorem goodEnd_accessTimer (v : Option Station) (w : Bool) : (goodEnd v w s).accessTimer = some 0 := rfl
@[simp] theorem goodEnd_listen (v : Option Station) (w : Bool) : (goodEnd v w s).listen = none := rfl
@[simp] theorem goodEnd_windowOpen (v : Option Station) (w : Bool) : (goodEnd v w s).windowOpen = w := rfl
@[simp] theorem goodEnd_buffer (v : Option Station) (w : Bool) : (goodEnd v w s).buffer = s.buffer := rfl
@[simp] theorem goodEnd_abortCount (v : Option Station) (w : Bool) : (goodEnd v w s).abortCount = s.abortCount := rfl
@[simp] theorem goodEnd_presenceTimer (v : Option Station) (w : Bool) : (goodEnd v w s).presenceTimer = s.presenceTimer := rfl
@[simp] theorem goodEnd_presenceMark (v : Option Station) (w : Bool) : (goodEnd v w s).presenceMark = s.presenceMark := rfl
@[simp] theorem goodEnd_responseMark (v : Option Station) (w : Bool) : (goodEnd v w s).responseMark = s.responseMark := rfl
@[simp] theorem goodEnd_flags (v : Option Station) (w : Bool) : (goodEnd v w s).flags = s.flags := rfl
@[simp] theorem goodEnd_mask (v : Option Station) (w : Bool) : (goodEnd v w s).mask = s.mask := rfl
@[simp] theorem goodEnd_notifyEnable (v : Option Station) (w : Bool) : (goodEnd v w s).notifyEnable = s.notifyEnable := rfl
@[simp] theorem goodEnd_notify (v : Option Station) (w : Bool) : (goodEnd v w s).notify = s.notify := rfl
@[simp] theorem goodEnd_response (v : Option Station) (w : Bool) : (goodEnd v w s).response = s.response := rfl

/-! ### foundBroken -/

@[simp] theorem foundBroken_pending (quiet : Nat) : (foundBroken quiet s).pending = s.pending := rfl
@[simp] theorem foundBroken_resetHeld (quiet : Nat) : (foundBroken quiet s).resetHeld = s.resetHeld := rfl
@[simp] theorem foundBroken_refclk (quiet : Nat) : (foundBroken quiet s).refclk = s.refclk := rfl
@[simp] theorem foundBroken_station (quiet : Nat) : (foundBroken quiet s).station = s.station := rfl
@[simp] theorem foundBroken_configError (quiet : Nat) : (foundBroken quiet s).configError = s.configError := rfl
@[simp] theorem foundBroken_mutedReason (quiet : Nat) : (foundBroken quiet s).mutedReason = s.mutedReason := rfl
@[simp] theorem foundBroken_record (quiet : Nat) : (foundBroken quiet s).record = s.record := rfl
@[simp] theorem foundBroken_pages (quiet : Nat) : (foundBroken quiet s).pages = s.pages := rfl
@[simp] theorem foundBroken_memory (quiet : Nat) : (foundBroken quiet s).memory = s.memory := rfl
@[simp] theorem foundBroken_publishQueue (quiet : Nat) : (foundBroken quiet s).publishQueue = s.publishQueue := rfl
@[simp] theorem foundBroken_channels (quiet : Nat) : (foundBroken quiet s).channels = s.channels := rfl
@[simp] theorem foundBroken_table (quiet : Nat) : (foundBroken quiet s).table = s.table := rfl
@[simp] theorem foundBroken_issues (quiet : Nat) : (foundBroken quiet s).issues = s.issues := rfl
@[simp] theorem foundBroken_sendOrder (quiet : Nat) : (foundBroken quiet s).sendOrder = s.sendOrder := rfl
@[simp] theorem foundBroken_replyQueue (quiet : Nat) : (foundBroken quiet s).replyQueue = s.replyQueue := rfl
@[simp] theorem foundBroken_filter (quiet : Nat) : (foundBroken quiet s).filter = s.filter := rfl
@[simp] theorem foundBroken_peers (quiet : Nat) : (foundBroken quiet s).peers = s.peers := rfl
@[simp] theorem foundBroken_transmitter (quiet : Nat) : (foundBroken quiet s).transmitter = s.transmitter := rfl
@[simp] theorem foundBroken_receiver (quiet : Nat) : (foundBroken quiet s).receiver = .recovering .brokenFrame quiet := rfl
@[simp] theorem foundBroken_counters (quiet : Nat) : (foundBroken quiet s).counters = s.counters := rfl
@[simp] theorem foundBroken_view (quiet : Nat) : (foundBroken quiet s).view = s.view := rfl
@[simp] theorem foundBroken_accessTimer (quiet : Nat) : (foundBroken quiet s).accessTimer = none := rfl
@[simp] theorem foundBroken_listen (quiet : Nat) : (foundBroken quiet s).listen = s.listen.map fun _ => quiet := rfl
@[simp] theorem foundBroken_windowOpen (quiet : Nat) : (foundBroken quiet s).windowOpen = false := rfl
@[simp] theorem foundBroken_buffer (quiet : Nat) : (foundBroken quiet s).buffer = s.buffer := rfl
@[simp] theorem foundBroken_abortCount (quiet : Nat) : (foundBroken quiet s).abortCount = s.abortCount := rfl
@[simp] theorem foundBroken_presenceTimer (quiet : Nat) : (foundBroken quiet s).presenceTimer = s.presenceTimer := rfl
@[simp] theorem foundBroken_presenceMark (quiet : Nat) : (foundBroken quiet s).presenceMark = s.presenceMark := rfl
@[simp] theorem foundBroken_responseMark (quiet : Nat) : (foundBroken quiet s).responseMark = s.responseMark := rfl
@[simp] theorem foundBroken_flags (quiet : Nat) : (foundBroken quiet s).flags = s.flags := rfl
@[simp] theorem foundBroken_mask (quiet : Nat) : (foundBroken quiet s).mask = s.mask := rfl
@[simp] theorem foundBroken_notifyEnable (quiet : Nat) : (foundBroken quiet s).notifyEnable = s.notifyEnable := rfl
@[simp] theorem foundBroken_notify (quiet : Nat) : (foundBroken quiet s).notify = s.notify := rfl
@[simp] theorem foundBroken_response (quiet : Nat) : (foundBroken quiet s).response = s.response := rfl

/-! ### frameSent -/

@[simp] theorem frameSent_pending : (frameSent s).pending = s.pending := rfl
@[simp] theorem frameSent_resetHeld : (frameSent s).resetHeld = s.resetHeld := rfl
@[simp] theorem frameSent_refclk : (frameSent s).refclk = s.refclk := rfl
@[simp] theorem frameSent_station : (frameSent s).station = s.station := rfl
@[simp] theorem frameSent_configError : (frameSent s).configError = s.configError := rfl
@[simp] theorem frameSent_mutedReason : (frameSent s).mutedReason = s.mutedReason := rfl
@[simp] theorem frameSent_record : (frameSent s).record = s.record := rfl
@[simp] theorem frameSent_pages : (frameSent s).pages = s.pages := rfl
@[simp] theorem frameSent_memory : (frameSent s).memory = s.memory := rfl
@[simp] theorem frameSent_publishQueue : (frameSent s).publishQueue = s.publishQueue := rfl
@[simp] theorem frameSent_channels : (frameSent s).channels = s.channels := rfl
@[simp] theorem frameSent_table : (frameSent s).table = s.table := rfl
@[simp] theorem frameSent_issues : (frameSent s).issues = s.issues := rfl
@[simp] theorem frameSent_sendOrder : (frameSent s).sendOrder = s.sendOrder := rfl
@[simp] theorem frameSent_replyQueue : (frameSent s).replyQueue = s.replyQueue := rfl
@[simp] theorem frameSent_filter : (frameSent s).filter = s.filter := rfl
@[simp] theorem frameSent_peers : (frameSent s).peers = s.peers := rfl
@[simp] theorem frameSent_transmitter : (frameSent s).transmitter = .idle := rfl
@[simp] theorem frameSent_receiver : (frameSent s).receiver = .resting := rfl
@[simp] theorem frameSent_counters : (frameSent s).counters = s.counters := rfl
@[simp] theorem frameSent_view : (frameSent s).view = some s.record.own := rfl
@[simp] theorem frameSent_accessTimer : (frameSent s).accessTimer = some 0 := rfl
@[simp] theorem frameSent_listen : (frameSent s).listen = none := rfl
@[simp] theorem frameSent_windowOpen : (frameSent s).windowOpen = false := rfl
@[simp] theorem frameSent_buffer : (frameSent s).buffer = none := rfl
@[simp] theorem frameSent_abortCount : (frameSent s).abortCount = 0 := rfl
@[simp] theorem frameSent_presenceTimer : (frameSent s).presenceTimer = s.presenceTimer := rfl
@[simp] theorem frameSent_presenceMark : (frameSent s).presenceMark = false := rfl
@[simp] theorem frameSent_responseMark : (frameSent s).responseMark = s.responseMark := rfl
@[simp] theorem frameSent_flags : (frameSent s).flags = s.flags := rfl
@[simp] theorem frameSent_mask : (frameSent s).mask = s.mask := rfl
@[simp] theorem frameSent_notifyEnable : (frameSent s).notifyEnable = s.notifyEnable := rfl
@[simp] theorem frameSent_notify : (frameSent s).notify = s.notify := rfl
@[simp] theorem frameSent_response : (frameSent s).response = s.response := rfl

end Sys2Proof.Machine
end

