-- ==== Sys2Proof/Laws/Memory.lean ====
section
/-! SUPPORT. Page memory as a list in canonical form: what a read finds after a write, and that every operation that writes
page memory keeps the form (R1). -/

namespace Sys2Proof.Machine

/-- Below its lower bound a canonical list holds no cell, so a read finds the cleared word. -/
theorem readCell_below {m : List (Nat × Word)} {low k : Nat} (h : cellsWf low m = true) (hk : k < low) :
    readCell m k = Config.clearedWord := by
  induction m generalizing low with
  | nil => rfl
  | cons c rest ih =>
    obtain ⟨a, w⟩ := c
    simp only [cellsWf, Bool.and_eq_true, decide_eq_true_eq] at h
    have : a ≠ k := by omega
    simp only [readCell, this, if_false]
    exact ih h.2 (by omega)

/-- A list canonical from a bound is canonical from every lower bound. -/
theorem cellsWf_weaken {m : List (Nat × Word)} {low low' : Nat} (h : cellsWf low m = true) (hl : low' ≤ low) :
    cellsWf low' m = true := by
  cases m with
  | nil => rfl
  | cons c rest =>
    obtain ⟨a, w⟩ := c
    simp only [cellsWf, Bool.and_eq_true, decide_eq_true_eq] at h ⊢
    exact ⟨⟨⟨by omega, h.1.1.2⟩, h.1.2⟩, h.2⟩

/-- What a read finds after a write of one word: the word at its address, every other word as before. -/
theorem readCell_writeCell {m : List (Nat × Word)} {low : Nat} (h : cellsWf low m = true) (k a : Nat) (v : Word) :
    readCell (writeCell m k v) a = if a = k then v else readCell m a := by
  induction m generalizing low with
  | nil =>
    simp only [writeCell]
    by_cases hak : a = k
    · split <;> simp [readCell, *]
    · split <;> simp [readCell, Ne.symm hak]
  | cons c rest ih =>
    obtain ⟨b, w⟩ := c
    simp only [cellsWf, Bool.and_eq_true, decide_eq_true_eq] at h
    have hrest := ih h.2
    simp only [writeCell]
    split
    · rename_i hkb
      have hbelow : readCell rest k = Config.clearedWord := readCell_below h.2 (by omega)
      split
      · rename_i hv
        by_cases hak : a = k
        · subst hak; simp [readCell, hbelow, hv, show b ≠ a by omega]
        · simp [hak]
      · by_cases hak : a = k
        · simp [readCell, hak]
        · simp [readCell, hak, Ne.symm hak]
    · split
      · rename_i hkb; subst hkb
        have hbelow : readCell rest k = Config.clearedWord := readCell_below h.2 (by omega)
        split
        · rename_i hv
          by_cases hak : a = k
          · subst hak; simp [hbelow, hv]
          · simp [readCell, hak, Ne.symm hak]
        · by_cases hak : a = k
          · simp [readCell, hak]
          · simp [readCell, hak, Ne.symm hak]
      · by_cases hba : b = a
        · subst hba; simp [readCell, show b ≠ k by omega]
        · simp [readCell, hba, hrest]

/-- A write inside page memory keeps the canonical form. -/
theorem cellsWf_writeCell {m : List (Nat × Word)} {low k : Nat} (h : cellsWf low m = true) (hl : low ≤ k) (hk : k < 4096)
    (v : Word) : cellsWf low (writeCell m k v) = true := by
  induction m generalizing low with
  | nil => simp only [writeCell]; split <;> simp_all [cellsWf]
  | cons c rest ih =>
    obtain ⟨b, w⟩ := c
    simp only [cellsWf, Bool.and_eq_true, decide_eq_true_eq] at h
    obtain ⟨⟨⟨h1, h2⟩, h3⟩, h4⟩ := h
    simp only [writeCell]
    split
    · split
      · simp_all [cellsWf]
      · simp_all [cellsWf]
    · split
      · split
        · exact cellsWf_weaken h4 (by omega)
        · rename_i hkb hv; subst hkb; simp_all [cellsWf]
      · have hr := ih h4 (by omega)
        simp_all [cellsWf]

/-- A write inside page memory keeps the canonical form. -/
theorem memoryWf_writeCell {m : List (Nat × Word)} {k : Nat} (h : memoryWf m = true) (hk : k < 4096) (v : Word) :
    memoryWf (writeCell m k v) = true := cellsWf_writeCell h (Nat.zero_le k) hk v

/-- Words written one after another inside page memory keep the canonical form. -/
theorem memoryWf_writeCells {m : List (Nat × Word)} {k : Nat} {ws : List Word} (h : memoryWf m = true)
    (hk : k + ws.length ≤ 4096) : memoryWf (writeCells m k ws) = true := by
  induction ws generalizing m k with
  | nil => exact h
  | cons w ws ih =>
    simp only [List.length_cons] at hk
    exact ih (memoryWf_writeCell h (by omega) w) (by omega)

/-- What a read finds after words are written: the word that stands at its place among them, every other word as before. -/
theorem readCell_writeCells {m : List (Nat × Word)} {k : Nat} {ws : List Word} (h : memoryWf m = true)
    (hk : k + ws.length ≤ 4096) (a : Nat) :
    readCell (writeCells m k ws) a = if k ≤ a then ws.getD (a - k) (readCell m a) else readCell m a := by
  induction ws generalizing m k with
  | nil => simp [writeCells]
  | cons w ws ih =>
    simp only [List.length_cons] at hk
    simp only [writeCells]
    rw [ih (memoryWf_writeCell h (by omega) w) (by omega), readCell_writeCell h]
    rcases Nat.lt_trichotomy a k with hlt | heq | hgt
    · simp [show ¬ k + 1 ≤ a by omega, show ¬ k ≤ a by omega, show a ≠ k by omega]
    · subst heq; simp
    · have : a - k = a - (k + 1) + 1 := by omega
      simp [show k + 1 ≤ a by omega, show k ≤ a by omega, show a ≠ k by omega, this]

/-- How many words a read of `n` words answers. -/
@[simp] theorem readCells_length (m : List (Nat × Word)) (k n : Nat) : (readCells m k n).length = n := by
  induction n generalizing k with
  | zero => rfl
  | succ n ih => simp [readCells, ih]

/-- The words that a read of `n` words answers, one by one. -/
theorem readCells_getElem (m : List (Nat × Word)) (k n i : Nat) (h : i < (readCells m k n).length) :
    (readCells m k n)[i] = readCell m (k + i) := by
  induction n generalizing k i with
  | zero => simp [readCells] at h
  | succ n ih =>
    cases i with
    | zero => rfl
    | succ i =>
      simp only [readCells, List.getElem_cons_succ]
      rw [ih (k + 1) i (by simpa [readCells] using h)]
      congr 1; omega

/-- A linear address of the common space lies in page memory. -/
theorem linear_lt {p : PageNo} {o : Nat} (h : o < 64) : linear p o < 4096 := by
  have := p.isLt; simp only [linear, Config.pageWords]; omega

/-- Different places of the common space have different linear addresses. -/
theorem linear_inj {p q : PageNo} {o o' : Nat} (h : o < 64) (h' : o' < 64) (e : linear p o = linear q o') :
    p = q ∧ o = o' := by
  simp only [linear, Config.pageWords] at e
  exact ⟨Fin.ext (by omega), by omega⟩

/-- Words put into a page: each reads back at its offset, every other word of the common space reads as before. -/
theorem putWords_word {s : State} (h : memoryWf s.memory = true) {p : PageNo} {o : Nat} {ws : List Word}
    (ho : o + ws.length ≤ 64) (q : PageNo) {x : Nat} (hx : x < 64) :
    (putWords p o ws s).word q x = if q = p ∧ o ≤ x then ws.getD (x - o) (s.word q x) else s.word q x := by
  have hp := p.isLt
  simp only [State.word, putWords_memory]
  rw [readCell_writeCells h (by simp only [linear, Config.pageWords]; omega)]
  by_cases hq : q = p
  · subst hq
    simp only [linear, Config.pageWords, true_and]
    by_cases hox : o ≤ x
    · have : q.val * 64 + x - (q.val * 64 + o) = x - o := by omega
      simp [hox, this]
    · simp [hox]
  · have hne : q.val ≠ p.val := fun e => hq (Fin.ext e)
    simp only [hq, false_and, if_false]
    split
    · rename_i hle
      simp only [linear, Config.pageWords] at hle ⊢
      rw [List.getD_eq_getElem?_getD, List.getElem?_eq_none (by omega)]; rfl
    · rfl

/-- Words put into a page keep the canonical form. -/
theorem putWords_memoryWf {s : State} (h : memoryWf s.memory = true) {p : PageNo} {o : Nat} {ws : List Word}
    (ho : o + ws.length ≤ 64) : memoryWf (putWords p o ws s).memory = true := by
  have := p.isLt
  exact memoryWf_writeCells h (by simp only [linear, Config.pageWords]; omega)

/-- Two canonical memories that read the same everywhere are the same list. -/
theorem cellsWf_ext {m m' : List (Nat × Word)} {low : Nat} (h : cellsWf low m = true) (h' : cellsWf low m' = true)
    (e : ∀ a, readCell m a = readCell m' a) : m = m' := by
  induction m generalizing m' low with
  | nil =>
    cases m' with
    | nil => rfl
    | cons c rest =>
      obtain ⟨a, w⟩ := c
      simp only [cellsWf, Bool.and_eq_true, decide_eq_true_eq] at h'
      have := e a
      simp [readCell] at this
      exact absurd this.symm h'.1.2
  | cons c rest ih =>
    obtain ⟨a, w⟩ := c
    cases m' with
    | nil =>
      simp only [cellsWf, Bool.and_eq_true, decide_eq_true_eq] at h
      have := e a
      simp [readCell] at this
      exact absurd this h.1.2
    | cons c' rest' =>
      obtain ⟨b, v⟩ := c'
      simp only [cellsWf, Bool.and_eq_true, decide_eq_true_eq] at h h'
      have hab : a = b := by
        rcases Nat.lt_trichotomy a b with hlt | heq | hgt
        · have := e a
          simp only [readCell, if_true, show b ≠ a by omega, if_false] at this
          rw [readCell_below h'.2 (by omega)] at this
          exact absurd this h.1.2
        · exact heq
        · have := e b
          simp only [readCell, if_true, show a ≠ b by omega, if_false] at this
          rw [readCell_below h.2 (by omega)] at this
          exact absurd this.symm h'.1.2
      subst hab
      have hwv : w = v := by simpa [readCell] using e a
      subst hwv
      congr 1
      refine ih h.2 h'.2 fun k => ?_
      by_cases hk : a = k
      · subst hk; rw [readCell_below h.2 (by omega), readCell_below h'.2 (by omega)]
      · simpa [readCell, hk] using e k

/-- Page memory after hardware reset is in canonical form. -/
theorem reset_memoryWf : memoryWf State.reset.memory = true := rfl

end Sys2Proof.Machine
end

