-- ==== Sys2Proof/Laws/Ops.lean ====
section
/-! SUPPORT. What each shared operation can do, said once. A lemma `<operation>_only` says which fields the operation can
change: every other field is the one before. The lemmas beside it say what the changed fields become. -/

namespace Sys2Proof.Machine

/-! ### Tables -/

@[simp] theorem mapTable_getElem {α : Type} {n : Nat} (f : Fin n → α → α) (v : Vector α n) (i : Nat) (h : i < n) :
    (mapTable f v)[i] = f ⟨i, h⟩ v[i] := by
  simp [mapTable]

theorem setVariant_variant (p q : PageNo) (v : PageVariant) (s : State) :
    (setVariant p v s).variant q = if q = p then v else s.variant q := by
  by_cases h : q = p
  · subst h; simp [State.variant, setVariant]
  · have : p.val ≠ q.val := fun e => h (Fin.ext e.symm)
    simp [State.variant, setVariant, h, this]

@[simp] theorem setVariant_variant_same (p : PageNo) (v : PageVariant) (s : State) :
    (setVariant p v s).variant p = v := by
  rw [setVariant_variant, if_pos rfl]

@[simp] theorem setVariant_disputed (p q : PageNo) (v : PageVariant) (s : State) :
    (setVariant p v s).disputed q = s.disputed q := by
  by_cases h : p.val = q.val
  · simp [State.disputed, setVariant, h]
  · simp [State.disputed, setVariant, h]

@[simp] theorem mapVariants_variant (f : PageNo → PageVariant → PageVariant) (s : State) (p : PageNo) :
    (mapVariants f s).variant p = f p (s.variant p) := by
  simp [State.variant, mapVariants]

@[simp] theorem mapVariants_disputed (f : PageNo → PageVariant → PageVariant) (s : State) (p : PageNo) :
    (mapVariants f s).disputed p = s.disputed p := by
  simp [State.disputed, mapVariants]

theorem setEntry_getElem (t u : Tag) (e : Option Request) (s : State) :
    (setEntry t e s).table[u] = if u = t then e else s.table[u] := by
  by_cases h : u = t
  · subst h; simp [setEntry]
  · have : t.val ≠ u.val := fun e => h (Fin.ext e.symm)
    simp [setEntry, h, this]

theorem setPeer_getElem (x y : Station) (r : PeerRecord) (s : State) :
    (setPeer x r s).peers[y] = if y = x then r else s.peers[y] := by
  by_cases h : y = x
  · subst h; simp [setPeer]
  · have : x.val ≠ y.val := fun e => h (Fin.ext e.symm)
    simp [setPeer, h, this]

/-! ### The notify queue -/

theorem notifyAppend_only (p : PageNo) (s : State) :
    notifyAppend p s =
      { s with
        notify := (notifyAppend p s).notify, flags := (notifyAppend p s).flags,
        counters := (notifyAppend p s).counters } := by
  unfold notifyAppend; split
  · rfl
  · split <;> rfl

/-- An append finds its page in the queue, or the queue full, or joins at the tail (R187). -/
theorem notifyAppend_cases (p : PageNo) (s : State) :
    (p ∈ s.notify ∧ notifyAppend p s = s) ∨
      (p ∉ s.notify ∧ Config.notifyQueueSize ≤ s.notify.length ∧
        notifyAppend p s = setFlag .notifyLost (advance .notifyLost s)) ∨
      (p ∉ s.notify ∧ s.notify.length < Config.notifyQueueSize ∧
        notifyAppend p s = { s with notify := s.notify ++ [p] }) := by
  unfold notifyAppend; split
  · exact .inl ⟨‹_›, rfl⟩
  · split
    · exact .inr (.inl ⟨‹_›, ‹_›, rfl⟩)
    · exact .inr (.inr ⟨‹_›, by omega, rfl⟩)

theorem notifyIf_only (w : Bool) (p : PageNo) (s : State) :
    notifyIf w p s =
      { s with
        notify := (notifyIf w p s).notify, flags := (notifyIf w p s).flags, counters := (notifyIf w p s).counters } := by
  cases w
  · rfl
  · exact notifyAppend_only p s

/-! ### The publish queue -/

theorem enqueue_only (x : Extent) (p : PageNo) (s : State) :
    enqueue x p s = { s with publishQueue := (enqueue x p s).publishQueue } := by
  unfold enqueue; split <;> rfl

/-- What a queueing does to the queue (R24). -/
theorem enqueue_publishQueue (x : Extent) (p : PageNo) (s : State) :
    (enqueue x p s).publishQueue =
      if s.station = .active ∧ s.eligible p then queueMerge s.publishQueue p x else s.publishQueue := by
  unfold enqueue; split <;> rfl

/-- A fold of operations that change the publish queue alone changes it alone. -/
theorem foldl_publishQueue_only {α : Type} (f : State → α → State) (l : List α)
    (h : ∀ s a, f s a = { s with publishQueue := (f s a).publishQueue }) (s : State) :
    l.foldl f s = { s with publishQueue := (l.foldl f s).publishQueue } := by
  induction l generalizing s with
  | nil => rfl
  | cons a l ih =>
    rw [List.foldl_cons, ih (f s a)]
    generalize (List.foldl f (f s a) l).publishQueue = q
    rw [h s a]

theorem enqueueAll_only (sel : PageNo → Bool) (x : Extent) (s : State) :
    enqueueAll sel x s = { s with publishQueue := (enqueueAll sel x s).publishQueue } := by
  refine foldl_publishQueue_only _ _ (fun s p => ?_) s
  split
  · exact enqueue_only x p s
  · rfl

/-- A page keeps its place when it is queued again; the pages before and behind keep theirs (R24). -/
theorem queueMerge_pages (q : List (PageNo × Extent)) (p : PageNo) (x : Extent) :
    (queueMerge q p x).map Prod.fst = if p ∈ q.map Prod.fst then q.map Prod.fst else q.map Prod.fst ++ [p] := by
  have hany : (q.any fun e => decide (e.1 = p)) = true ↔ p ∈ q.map Prod.fst := by
    rw [List.any_eq_true, List.mem_map]; simp only [decide_eq_true_eq]
  unfold queueMerge
  by_cases h : (q.any fun e => decide (e.1 = p)) = true
  · simp only [h, if_true, hany.mp h]
    rw [List.map_map]
    refine List.map_congr_left fun e _ => ?_
    by_cases he : e.1 = p <;> simp [he]
  · have h' : p ∉ q.map Prod.fst := fun m => h (hany.mpr m)
    simp only [h', if_false]
    rw [if_neg h]
    simp

/-! ### Schedule channels and the store -/

theorem signalChannel_only (c : ChannelNo) (s : State) :
    signalChannel c s = { s with channels := (signalChannel c s).channels } := by
  unfold signalChannel; split
  · split <;> rfl
  · rfl
  · rfl

theorem policyAction_only (p : PageNo) (policy : Policy) (s : State) :
    policyAction p policy s =
      { s with
        publishQueue := (policyAction p policy s).publishQueue, channels := (policyAction p policy s).channels } := by
  unfold policyAction; split
  · split
    · conv_lhs => rw [enqueue_only]
      rw [enqueue_only]
    · conv_lhs => rw [signalChannel_only]
      rw [signalChannel_only]
    · rfl
    · rfl
  · rfl

theorem storeWrite_only (p : PageNo) (o : Nat) (ws : List Word) (s : State) :
    storeWrite p o ws s =
      { s with
        memory := (storeWrite p o ws s).memory, pages := (storeWrite p o ws s).pages,
        publishQueue := (storeWrite p o ws s).publishQueue, channels := (storeWrite p o ws s).channels } := by
  unfold storeWrite; split
  · conv_lhs => rw [policyAction_only]
    rw [policyAction_only]
    simp
  · rfl

/-- The words of a write into an owned page enter the store; no other word changes (R19). -/
theorem storeWrite_memory (p : PageNo) (o : Nat) (ws : List Word) (s : State) :
    (storeWrite p o ws s).memory =
      if (s.variant p).isOwn then writeCells s.memory (linear p o) ws else s.memory := by
  unfold storeWrite; split
  · rename_i h; rw [policyAction_only]; simp [h, PageVariant.isOwn]
  · rename_i h
    cases hv : s.variant p <;> simp_all [PageVariant.isOwn]

/-- A write into the store keeps the canonical form of page memory. -/
theorem storeWrite_memoryWf {s : State} (h : memoryWf s.memory = true) {p : PageNo} {o : Nat} {ws : List Word}
    (ho : o + ws.length ≤ 64) : memoryWf (storeWrite p o ws s).memory = true := by
  rw [storeWrite_memory]; split
  · have := p.isLt
    exact memoryWf_writeCells h (by simp only [linear, Config.pageWords]; omega)
  · exact h

/-! ### The transmit buffer -/

theorem discardFrame_only (sel : Origin → Bool) (s : State) :
    discardFrame sel s = { s with buffer := (discardFrame sel s).buffer } := by
  unfold discardFrame; split
  · split <;> rfl
  · rfl

/-- A discard removes a HELD frame of a chosen origin and marks a DRIVEN one (R143). -/
theorem discardFrame_buffer (sel : Origin → Bool) (s : State) :
    (discardFrame sel s).buffer =
      s.buffer.bind fun f =>
        if sel f.origin then (if f.driven then some { f with discard := true } else none) else some f := by
  unfold discardFrame
  cases h : s.buffer with
  | none => simp [h]
  | some f => simp only [Option.bind_some]; split <;> simp_all

/-! ### The request table -/

theorem endRequests_only (sel : Request → Bool) (why : LocalReason) (s : State) :
    endRequests sel why s =
      { s with
        table := mapTable (fun _ e => endEntry sel why e) s.table
        sendOrder := s.sendOrder.filter fun t => !s.openHit sel t
        buffer := (endRequests sel why s).buffer
        flags := (endRequests sel why s).flags } := by
  unfold endRequests
  rw [discardFrame_only]
  dsimp only
  split <;> rfl

/-- Ending requests sets REQUEST_DONE exactly if a READ or WRITE failed, and changes no other flag (R87). -/
theorem endRequests_flags (sel : Request → Bool) (why : LocalReason) (s : State) :
    (endRequests sel why s).flags =
      if (List.finRange 16).any (fun t => s.hostHit sel t) then s.flags ||| Event.requestDone.byte else s.flags := by
  unfold endRequests
  rw [discardFrame_only]
  dsimp only
  split <;> rfl

theorem claimPage_only (p : PageNo) (s : State) :
    claimPage p s =
      { s with
        pages := (claimPage p s).pages, issues := (claimPage p s).issues, table := (claimPage p s).table,
        sendOrder := (claimPage p s).sendOrder } := by
  unfold claimPage; split
  · split
    · split <;> rfl
    · rfl
  · rfl

theorem claimRefreshes_only (s : State) :
    claimRefreshes s =
      { s with
        pages := (claimRefreshes s).pages, issues := (claimRefreshes s).issues, table := (claimRefreshes s).table,
        sendOrder := (claimRefreshes s).sendOrder } := by
  unfold claimRefreshes; split
  · generalize List.finRange 64 = l
    induction l generalizing s with
    | nil => rfl
    | cons p l ih =>
      have hp := claimPage_only p s
      rw [List.foldl_cons, ih (claimPage p s) (by rw [hp]; assumption)]
      generalize List.foldl _ _ l = u
      rw [hp]
  · rfl

theorem refreshFailed_only (p : PageNo) (s : State) :
    refreshFailed p s = { s with pages := (refreshFailed p s).pages } := by
  unfold refreshFailed; split <;> rfl

/-! ### The peer table -/

theorem renewPresence_only (x : Station) (s : State) :
    renewPresence x s = { s with peers := (renewPresence x s).peers, flags := (renewPresence x s).flags } := by
  unfold renewPresence; dsimp only; split <;> rfl

/-- A good frame makes its sender PRESENT with the silence counter loaded; no other record changes (R165). -/
theorem renewPresence_peers (x y : Station) (s : State) :
    (renewPresence x s).peers[y] =
      if y = x then { s.peers[x] with state := .present s.silenceLoad } else s.peers[y] := by
  unfold renewPresence; dsimp only
  split
  · exact setPeer_getElem x y _ s
  · exact setPeer_getElem x y _ s

theorem ownerLost_only (x : Station) (s : State) :
    ownerLost x s =
      { s with
        pages := (ownerLost x s).pages, table := (ownerLost x s).table, sendOrder := (ownerLost x s).sendOrder,
        buffer := (ownerLost x s).buffer, flags := (ownerLost x s).flags } := by
  unfold ownerLost mapVariants; rw [endRequests_only]

theorem ownerRejoined_only (x : Station) (s : State) :
    ownerRejoined x s =
      { s with
        pages := (ownerRejoined x s).pages, table := (ownerRejoined x s).table,
        sendOrder := (ownerRejoined x s).sendOrder, buffer := (ownerRejoined x s).buffer,
        flags := (ownerRejoined x s).flags, filter := s.filter.filter fun f => f.writer ≠ x } := by
  unfold ownerRejoined mapVariants; dsimp only; rw [endRequests_only]

theorem becomeDisputed_only (sel : PageNo → Bool) (s : State) :
    becomeDisputed sel s =
      { s with
        pages := (becomeDisputed sel s).pages, table := (becomeDisputed sel s).table,
        sendOrder := (becomeDisputed sel s).sendOrder, buffer := (becomeDisputed sel s).buffer,
        flags := (becomeDisputed sel s).flags, publishQueue := s.publishQueue.filter fun e => !sel e.1 } := by
  unfold becomeDisputed; dsimp only; rw [endRequests_only, discardFrame_only]

/-! ### Mirrors -/

theorem applyToMirror_only (p : PageNo) (d : MirrorDesc) (first : Nat) (ws : List Word) (v : Byte) (st : MirrorState)
    (mark : RefreshMark) (s : State) :
    applyToMirror p d first ws v st mark s =
      { s with
        memory := writeCells s.memory (linear p first) ws,
        pages := (applyToMirror p d first ws v st mark s).pages,
        notify := (applyToMirror p d first ws v st mark s).notify,
        flags := (applyToMirror p d first ws v st mark s).flags,
        counters := (applyToMirror p d first ws v st mark s).counters } := by
  unfold applyToMirror; rw [notifyIf_only]; rfl

/-! ### Frames from the line -/

/-- A frame row does nothing, mutes or keeps muted on the own number, or is taken at the end of a good frame. -/
theorem frameFrom_cases (x : Station) (window : Bool) (f : State → State) (s : State) :
    (x = s.record.own ∧ s.findsTwin = false ∧ frameFrom x window f s = s) ∨
      (x = s.record.own ∧ s.findsTwin = true ∧
        frameFrom x window f s = duplicateFound (goodEnd (some s.record.own) false s)) ∨
      (x ≠ s.record.own ∧ s.hears = false ∧ frameFrom x window f s = s) ∨
      (x ≠ s.record.own ∧ s.hears = true ∧ frameFrom x window f s = f (goodEnd (some x) window s)) := by
  unfold frameFrom
  by_cases hx : x = s.record.own <;> cases ht : s.findsTwin <;> cases hh : s.hears <;> simp [hx]

/-- A bit time after the entry to JOINING, a REJOIN counts as any entry (R117). -/
theorem RecoveryCause.later_eq (c : RecoveryCause) : c.later = if c = .rejoined then .joining else c := by
  cases c <;> rfl

/-- What the station must be for a good frame of another station to be taken (R117, R134). -/
theorem hears_iff (s : State) :
    s.hears = true ↔
      s.station ≠ .setup ∧ (∀ cause n, s.receiver ≠ .recovering cause n) ∧
        (s.transmitter = .idle ∨ ∃ n, s.transmitter = .sending n ∧ s.receiver = .resting) := by
  cases hr : s.receiver <;> cases ht : s.transmitter <;>
    simp [State.hears, State.onLine, Receiver.waits, ownStart, hr, ht]

/-- What the station must be for a frame with the own number to be found (R127, R158). -/
theorem findsTwin_iff (s : State) :
    s.findsTwin = true ↔
      s.station ≠ .setup ∧ s.transmitter = .idle ∧
        ∀ cause n, s.receiver = .recovering cause n → cause = .rejoined := by
  cases hr : s.receiver with
  | recovering cause n => cases cause <;> simp [State.findsTwin, State.onLine, Receiver.waits, hr]
  | _ => simp [State.findsTwin, State.onLine, Receiver.waits, hr]

/-- A change of the running station takes place unless RESETn is low (R163). -/
theorem taken_eq (f : State → State) (s : State) :
    taken f s = .next (if s.resetHeld then s else f s) := rfl

end Sys2Proof.Machine
end

