-- ==== Sys2Proof/Laws/Clock.lean ====
section
/-! SUPPORT. What the clock can do, said once: when each kind of row falls due, that nothing falls due exactly in the states of
`NothingDue`, and the three things a step with no command waiting can be. -/

namespace Sys2Proof.Machine

variable (s : State)

theorem isDue_iff (c : Option Counter) : isDue c = true ↔ ∃ k, c = some k ∧ k.due = true := by
  cases c <;> simp [isDue]

theorem channelDue_iff (c : ChannelNo) (i : Instr) :
    channelDue s c = some i ↔
      (i = .gatherChannelExpiry c ∧ DueRow s (.gatherChannelExpiry c)) ∨
        (i = .periodChannelExpiry c ∧ DueRow s (.periodChannelExpiry c)) := by
  simp only [channelDue, DueRow, ← isDue_iff]
  cases hk : s.channels[c].kind <;> cases hd : isDue s.channels[c].run <;> simp [ChannelKind.gathers, @eq_comm _ i]

theorem replyDue_iff (u : Tag) (i : Instr) :
    replyDue s u = some i ↔ i = .replyTimerExpiry u ∧ DueRow s (.replyTimerExpiry u) := by
  cases h : s.table[u] with
  | none => simp [replyDue, DueRow, h]
  | some r =>
    cases hp : r.phase with
    | sent k => cases hk : k.due <;> simp [replyDue, DueRow, h, hp, hk, @eq_comm _ i]
    | _ => simp [replyDue, DueRow, h, hp]

theorem ageDue_iff (p : PageNo) (i : Instr) :
    ageDue s p = some i ↔ i = .ageCounterExpiry p ∧ DueRow s (.ageCounterExpiry p) := by
  cases h : s.variant p with
  | mirror d r => cases hk : isDue r.age <;> simp [ageDue, DueRow, h, ← isDue_iff, hk, @eq_comm _ i]
  | _ => simp [ageDue, DueRow, h]

theorem silenceDue_iff (x : Station) (i : Instr) :
    silenceDue s x = some i ↔ i = .silenceCounterExpiry x ∧ DueRow s (.silenceCounterExpiry x) := by
  cases h : s.peers[x].state with
  | present k => cases hk : k.due <;> simp only [silenceDue, DueRow, h] <;> simp [hk, @eq_comm _ i]
  | _ => simp only [silenceDue, DueRow, h]; simp

theorem isPresent_iff (x : Station) : s.isPresent x = true ↔ Present s x := by
  cases h : s.peers[x].state <;> simp_all [State.isPresent, PeerState.isPresent, Present]

/-- The pages whose claims the refresh-claim row serves (R58). -/
theorem claimReady_iff (p : PageNo) :
    claimReady s p = true ↔ ∃ d r, s.variant p = .mirror d r ∧ r.mark = .wanted ∧ Present s d.owner := by
  cases h : s.variant p with
  | mirror d r => simp [claimReady, h, ← isPresent_iff]
  | _ => simp_all [claimReady]

theorem lowestFree_isSome : (lowestFree s.table).isSome = true ↔ ∃ u : Tag, s.table[u] = none := by
  simp [lowestFree, List.find?_isSome]

theorem restDue_iff (i : Instr) :
    restDue s = some i ↔
      (i = .brokenFrameEnd ∧ DueRow s .brokenFrameEnd) ∨ (i = .recoveringEnd ∧ DueRow s .recoveringEnd) := by
  cases h : s.receiver with
  | recovering cause n =>
    have hr : Config.restBits ≤ n ↔ 10 ≤ n := Iff.rfl
    by_cases hx : s.station = .setup <;> by_cases ht : s.transmitter = .idle <;> by_cases hn : 10 ≤ n <;> cases cause <;>
      simp [restDue, DueRow, State.onLine, h, hx, ht, hn, hr, @eq_comm _ i]
  | _ => simp [restDue, DueRow, h]

theorem ownStart_iff : ownStart s = true ↔ OwnStart s := by
  cases ht : s.transmitter <;> cases hr : s.receiver <;> simp [ownStart, OwnStart, ht, hr]

/-- The clock queues exactly the rows that are due. -/
theorem mem_dueNow (i : Instr) : i ∈ dueNow s ↔ DueRow s i := by
  have hc : (s.station = .active ∧ (lowestFree s.table).isSome ∧ (List.finRange 64).any (claimReady s)) ↔
      DueRow s .refreshClaim := by
    simp [DueRow, lowestFree_isSome, claimReady_iff]
  have hp : isDue s.presenceTimer = true ↔ DueRow s .presenceTimerExpiry := isDue_iff _
  simp only [dueNow, List.mem_append, List.mem_filterMap, List.mem_finRange, true_and, Option.mem_toList, channelDue_iff,
    replyDue_iff, ageDue_iff, silenceDue_iff, restDue_iff, hc, hp, List.mem_ite_nil_right,
    List.mem_singleton]
  constructor
  · intro h
    rcases h with ((((((h | h) | ⟨_, h | h⟩) | ⟨_, h⟩) | ⟨_, h⟩) | ⟨_, h⟩) | h) | h <;> obtain ⟨h₁, h₂⟩ := h <;>
      first
      | (subst h₁; exact h₂)
      | (subst h₂; exact h₁)
  · intro h
    cases i <;> first | exact h.elim | simp_all

/-- Nothing is due exactly where the clock finds no row to queue. -/
theorem nothingDue_iff : NothingDue s ↔ dueNow s = [] ∧ ownStart s = false := by
  simp only [NothingDue, ← ownStart_iff, ← mem_dueNow, List.eq_nil_iff_forall_not_mem, Bool.not_eq_true]
  tauto

/-- The three things a step with no command waiting can be while RESETn is high: the start of the own frame, the rows that are
due, or a bit time. -/
theorem idle_cases (h : s.resetHeld = false) :
    (ownStart s = true ∧ idle s = { s with pending := [.activityStart] }) ∨
    (ownStart s = false ∧ dueNow s ≠ [] ∧ idle s = { s with pending := dueNow s }) ∨
    (NothingDue s ∧ idle s = bitTime s) := by
  rw [nothingDue_iff]
  cases ho : ownStart s <;> cases hd : dueNow s <;> simp_all [idle]

end Sys2Proof.Machine
end

