-- ==== Sys2Proof/Tests/Slice0.lean ====
section
/-! SUPPORT. The model's own tests: what each check of WellFormed refuses, commands and frames written out byte by byte, one
or two small steps for each row, and for each obligation with hypotheses a witness that meets them. Expected values come from
the tables and worked sequences that the comments name. -/

namespace Sys2Proof.Tests

open Sys2Proof Sys2Proof.Machine

-- One theorem after another: checked side by side, the theorems below hold more threads than the check's memory limit allows.
set_option Elab.async false

/-! ### States to test on -/

/-- The state after a command. -/
def after (c : Instr) (s : State) : State :=
  match exec c s with
  | .next t => t
  | .fault _ => s
  | .refused _ => s

/-- The response bytes of a command. -/
def answer (c : Instr) (s : State) : List Byte := (after c s).response

/-- An owned page. -/
def ownPage (policy : Policy) (remoteWrites : RemoteWrites) (watch : Bool) (version : Byte) (span : Option Span) : Page :=
  { variant := .own { policy := policy, remoteWrites := remoteWrites, watch := watch } { version := version, span := span }
    disputed := false }

/-- A mirrored page. -/
def mirrorPage (owner : Station) (route : WriteRoute) (limit : Nat) (watch : Bool) (state : MirrorState)
    (last : Option Byte) (age : Option Counter) (mark : RefreshMark) : Page :=
  { variant := .mirror { owner := owner, writeRoute := route, ageLimit := limit, watch := watch }
      { state := state, last := last, age := age, mark := mark }
    disputed := false }

/-- A request entry. -/
def entry (kind : RequestKind) (owner : Station) (page : PageNo) (offset count : Nat) (issue : Issue) (attempt : Nat)
    (phase : Phase) : Request :=
  { kind := kind, owner := owner, page := page, offset := offset, count := count, issue := issue, attempt := attempt,
    phase := phase }

/-- Station 1 of a ring of 4, ACTIVE, with pages of every variant, four peers known and five entries in use. -/
def fx : State :=
  { State.reset with
    station := .active
    record := { own := 1, ring := 4, rate := .mbit10, silence := 10, replyTimeout := 20, retryLimit := 3 }
    pages :=
      ((((((((((((Vector.replicate 64 { variant := .none, disputed := false }).set 0
        (ownPage .onWrite .accept true 5 (some { low := 2, high := 3 }))).set 1
        (ownPage (.gather 0) .refuse false 0 none)).set 2
        (ownPage (.period 1) .accept false 40 none)).set 3
        (ownPage .quiet .accept false 0 none)).set 4
        (mirrorPage 2 .send 2 true .fresh (some 7) (some { pre := 100, main := 2, due := false }) .none)).set 5
        (mirrorPage 2 .deny 0 false .empty none none .none)).set 6
        { variant := .fetch { owner := 2, writeRoute := .send, watch := false }, disputed := false }).set 7
        { ownPage .onWrite .accept false 9 none with disputed := true }).set 8
        (mirrorPage 3 .deny 0 false .stale (some 254) none .none)).set 40
        (mirrorPage 2 .deny 0 false .gapped (some 19) none .wanted)).set 41
        (mirrorPage 3 .deny 0 false .gapped (some 32) none .pending)).set 63 (ownPage .onWrite .accept false 255 none)
    memory := [(2, 0x00C8#16), (256, 0x1234#16), (257, 0x0056#16)]
    publishQueue := [(0, .span)]
    channels := State.reset.channels.set 1
      { kind := .period, prescale := 5, count := 3, run := some { pre := 5, main := 3, due := false } }
    table :=
      ((((State.reset.table.set 0
        (some (entry .read 2 6 10 2 1 0 (.sent { pre := 10, main := 20, due := false })))).set 1
        (some (entry (.write [0x00C8#16]) 2 4 4 1 7 3 (.sent { pre := 1, main := 1, due := true })))).set 2
        (some (entry .read 2 6 0 1 2 1 (.done .done (some (9, [0x1234#16])))))).set 3
        (some (entry .read 2 6 0 16 1 0 (.queued false)))).set 15
        (some (entry .refresh 3 41 0 64 9 0 (.sent { pre := 3, main := 4, due := false })))
    sendOrder := [3]
    replyQueue := [.ack 2 0 7 0 .done]
    filter := [{ writer := 2, tag := 0, issue := 7, status := .done }]
    peers :=
      ((State.reset.peers.set 0 { state := .silent, announced := some (0, 10) }).set 2
        { state := .present { pre := 100, main := 10, due := false }, announced := some (0x30000000070#64, 10) }).set 3
        { state := .present { pre := 1, main := 1, due := true }, announced := none }
    view := some 0
    accessTimer := some 5
    presenceTimer := some { pre := 100, main := 5, due := false }
    notify := [4] }

/-- The same station with its transmitter at work on a frame of the origin. -/
def sending (o : Origin) (s : State) : State := startFrame o (s.frame 0xFF#8 .presence) s

/-- The same station with the transmitter jamming on a frame of the origin, the eighth abort near. -/
def jamming (o : Origin) (aborts : Nat) (s : State) : State :=
  { sending o s with transmitter := .jamming 16, abortCount := aborts }

/-- The station back in JOINING, listening, with the rest of entry to JOINING not yet complete. -/
def joining : State := enterJoining .joining { State.reset with record := fx.record }

/-- The station in JOINING with the line at rest. -/
def joiningQuiet : State := { joining with receiver := .resting, listen := some 52 }

/-- The station in LEAVING with nothing to send but its LEAVE frame. -/
def leaving : State := enterLeaving { fx with replyQueue := [] }

/-- Station 1 of a ring of 4 on a quiet line, ACTIVE with nothing to do; its slot after station 0 is at 20 bt. -/
def quietLine : State := { State.reset with station := .active, record := fx.record, view := some 0 }

/-- The station in MUTED. -/
def muted : State := enterMuted .aborts fx

/-- The station at its start instant with 8 answers owed, the head of them taken and its first bit not yet on the line. -/
def starting : State := after .rotationSlot { fx with replyQueue := List.replicate 8 (.ack 2 0 7 0 .done) }

/-- The station just after a REJOIN. -/
def rejoined : State := after .rejoin muted

/-- A frame of any header, body and the CRC that belongs to them. -/
def rawFrame (h0 sender target : Byte) (body : List Byte) : List Byte :=
  let bytes := h0 :: sender :: target :: byteOf body.length :: body
  bytes ++ wordBytes (crcOf bytes)

/-! ### What the checks of WellFormed refuse -/

theorem test_wf_owner_byte_of_a_peer_is_not_reserved : (Instr.setPage 0 (.reserved 31)).wf = false := by decide
theorem test_wf_owner_byte_40h_is_not_reserved : (Instr.setPage 0 (.reserved 0x40)).wf = false := by decide
theorem test_wf_write_needs_its_words : (Instr.write 0 0 2 [0x1#16]).wf = false := by decide
theorem test_wf_write_of_17_words_carries_none : (Instr.write 0 0 17 [0x1#16]).wf = false := by decide
theorem test_wf_known_code_is_not_unknown : (Instr.unknownCommand 0x25).wf = false := by decide
theorem test_wf_whole_command_is_not_discarded : (Instr.transactionDiscarded ⟨false, [0x12, 3]⟩).wf = false := by decide
theorem test_wf_crc_error_after_a_stop_bit : (Instr.frameFoundBroken (.crcError 0)).wf = false := by decide
theorem test_wf_short_frame_within_a_rest : (Instr.frameFoundBroken (.shortFrame 11)).wf = false := by decide
theorem test_wf_update_needs_a_word : (Instr.updateFrame 1 0 0 0 []).wf = false := by decide
theorem test_wf_update_body_within_134_bytes : (Instr.updateFrame 1 0 0 0 (List.replicate 66 0)).wf = false := by decide
theorem test_wf_write_body_within_134_bytes :
    (Instr.writeFrame 1 0 0 0 0 0 (List.replicate 65 0)).wf = false := by decide
theorem test_wf_refused_reply_carries_no_word : (Instr.replyFrame 1 0 0 0 1 0 0 1 [0]).wf = false := by decide
theorem test_wf_done_reply_carries_count_words : (Instr.replyFrame 1 0 0 0 0 0 0 2 [0]).wf = false := by decide
theorem test_wf_frame_sender_is_a_station : (Frame.mk 32 0xFF .presence).wf = false := by decide
theorem test_wf_presence_goes_to_all : (Frame.mk 1 2 .presence).wf = false := by decide
theorem test_wf_ack_goes_to_one : (Frame.mk 1 0xFF (.ack 0 0 0 0)).wf = false := by decide
theorem test_wf_update_page_of_the_space : (Frame.mk 1 0xFF (.update 64 0 0 [0])).wf = false := by decide

/-! ### Transactions and frames written out byte by byte -/

/-- Section 10.8: READ of 40:00, count 2, with filler bytes clocked after it. -/
theorem test_decode_read : decodeTransaction ⟨false, [0x10, 0x28, 0x00, 0x02, 0xAA, 0xAA]⟩ = .read 0x28 0 2 := by decide
/-- Section 10.8: CSn raised after byte 3. -/
theorem test_decode_read_cut : decodeTransaction ⟨false, [0x10, 0x28, 0x00]⟩ =
    .transactionDiscarded ⟨false, [0x10, 0x28, 0x00]⟩ := by decide
/-- Section 10.8: WRITE of 0001h to 9:00. -/
theorem test_decode_write : decodeTransaction ⟨false, [0x11, 0x09, 0x00, 0x01, 0x00, 0x01]⟩ = .write 9 0 1 [0x0001#16] := by decide
/-- R178: no word bytes follow a count of 0. -/
theorem test_decode_write_count_0 : decodeTransaction ⟨false, [0x11, 0x09, 0x00, 0x00]⟩ = .write 9 0 0 [] := by decide
/-- R176: the owner byte gives the number of argument bytes. -/
theorem test_decode_set_page_self : decodeTransaction ⟨false, [0x02, 0x0A, 0x40, 1, 7, 0, 1]⟩ = .setPage 10 (.self 1 7 0 1) := by
  decide
theorem test_decode_set_page_peer : decodeTransaction ⟨false, [0x02, 0x0A, 0x1F, 0, 1, 255, 1]⟩ = .setPage 10 (.peer 31 0 1 255 1) := by
  decide
theorem test_decode_set_page_none : decodeTransaction ⟨false, [0x02, 0x3F, 0x80]⟩ = .setPage 63 .none := by decide
/-- R172: a whole command is not taken if RESETn was low when CSn fell. -/
theorem test_decode_begun_in_reset :
    decodeTransaction ⟨true, [0x12, 3]⟩ = .transactionDiscarded ⟨true, [0x12, 3]⟩ ∧
      (Instr.transactionDiscarded ⟨true, [0x12, 3]⟩).wf = true := by decide
/-- R173. -/
theorem test_decode_unknown : decodeTransaction ⟨false, [0x05, 0x01]⟩ = .unknownCommand 5 := by decide

/-- Table 7.2: PRESENCE from station 3. The CRC is R115's, worked out apart from the model. -/
theorem test_wire_presence : (Frame.mk 3 0xFF .presence).wire = [0x02, 0x03, 0xFF, 0x00, 0xCF, 0x54] := by decide +kernel
/-- Table 7.3: an ACK of tag 2, issue 5, attempt 1, status RANGE to station 1. -/
theorem test_wire_ack_body : (FrameBody.ack 2 5 1 4).bytes = [0x25, 0x01, 0x04] := by decide
/-- Table 7.3: a WRITE of 00C8h at 9:04, tag 0, issue 7, attempt 0 (section 11.3). -/
theorem test_wire_write_body : (FrameBody.write 9 4 0 7 0 [0x00C8#16]).bytes = [9, 4, 1, 0x07, 0, 0x00, 0xC8] := by decide
/-- Table 7.2: the JOIN flag is bit 4, and page 12 of the owned set is bit 4 of byte 1 (section 11.1). -/
theorem test_wire_join_announce :
    (Frame.mk 2 0xFF (.announce true 3 10 (BitVec.twoPow 64 12))).bytes =
      [0x11, 2, 0xFF, 10, 3, 10, 0, 0x10, 0, 0, 0, 0, 0, 0] := by decide
/-- R115: one data bit of 0 into FFFFh shifts it and brings in 1021h; one of 1 shifts it alone. -/
theorem test_crc_first_bit : crcBit 0xFFFF#16 false = 0xEFDF#16 ∧ crcBit 0xFFFF#16 true = 0xFFFE#16 := by decide
/-- A frame of another station read back, to this station and to another (R120). -/
theorem test_decode_fetch : decodeLine 1 (Frame.mk 2 1 (.fetch 9 0 16 3 4 0)).wire = .fetchFrame 2 9 0 16 3 4 0 := by decide +kernel
theorem test_decode_fetch_for_another :
    decodeLine 3 (Frame.mk 2 1 (.fetch 9 0 16 3 4 0)).wire = .otherTargetFrame 2 := by decide +kernel
/-- R126, R117, R119: the own number, a CRC error, a bad target. -/
theorem test_decode_own_number : decodeLine 2 (Frame.mk 2 0xFF .leave).wire = .duplicateStationFrame := by decide +kernel
theorem test_decode_crc_error : decodeLine 1 [0x02, 3, 0xFF, 0, 0, 0] = .frameFoundBroken (.crcError 1) := by decide +kernel
/-- Section 11.4: a last byte of FEh leaves the line recessive for the frame's last 8 bit times. -/
theorem test_decode_crc_error_quiet :
    decodeLine 1 [0x02, 3, 0xFF, 0, 0, 0xFE] = .frameFoundBroken (.crcError 8) := by decide +kernel
theorem test_decode_malformed : decodeLine 1 (Frame.mk 2 0xFF (.ack 0 0 0 0)).wire = .malformedFrame 2 := by decide +kernel
/-- R119, test by test: a body of 135 bytes; kind codes 0 and 9, and bit 5 of header byte 0; the JOIN flag on a PRESENCE; sender
32; an UPDATE to one station and a FETCH to all; a FETCH body of 4 bytes; an UPDATE of no word, and one of page 64. -/
theorem test_malformed_tests :
    malformed 2 3 0xFF (List.replicate 135 0) = true ∧
      decodeLine 1 (rawFrame 0 3 0xFF []) = .malformedFrame 3 ∧ decodeLine 1 (rawFrame 9 3 0xFF []) = .malformedFrame 3 ∧
      decodeLine 1 (rawFrame 0x22 3 0xFF []) = .malformedFrame 3 ∧ decodeLine 1 (rawFrame 0x12 3 0xFF []) = .malformedFrame 3 ∧
      decodeLine 1 (rawFrame 2 32 0xFF []) = .malformedFrame 32 ∧
      decodeLine 1 (rawFrame 4 3 1 [0, 0, 0, 1, 0, 0]) = .malformedFrame 3 ∧
      decodeLine 1 (rawFrame 5 3 0xFF [0, 0, 1, 0, 0]) = .malformedFrame 3 ∧
      decodeLine 1 (rawFrame 5 3 1 [0, 0, 1, 0]) = .malformedFrame 3 ∧
      decodeLine 1 (rawFrame 4 3 0xFF [0, 0, 0, 0]) = .malformedFrame 3 ∧
      decodeLine 1 (rawFrame 4 3 0xFF [64, 0, 0, 1, 0, 0]) = .malformedFrame 3 ∧
      decodeLine 1 (rawFrame 4 3 0xFF [63, 0, 0, 1, 0, 0]) = .updateFrame 3 63 0 0 [0] := by decide +kernel
/-- R113: bit 0 first, a 0 sent dominant. -/
theorem test_byte_frame :
    byteFrame 0x05 = [false, true, false, true, false, false, false, false, false, true] := by decide

/-- R117: a dominant second bit, a dominant stop bit, a start bit that does not come, and a whole frame. -/
theorem test_receive :
    receiveLine 1 [false, false] = .frameFoundBroken .badStartPattern ∧
      receiveLine 1 ([false, true] ++ List.replicate 10 false) = .frameFoundBroken .badStopBit ∧
      receiveLine 1 ([false, true] ++ byteFrame 0x02) = .frameFoundBroken (.shortFrame 2) ∧
      receiveLine 1 ([false, true] ++ byteFrame 0xFF) = .frameFoundBroken (.shortFrame 10) ∧
      receiveLine 1 (Frame.mk 2 0xFF .leave).lineBits = .leaveFrame 2 := by decide +kernel
/-- Section 10.8: the eleven bytes that MISO carries for READ of 40:00, count 2. -/
theorem test_miso :
    (List.range 11).map (misoByte false (some 4) [0x00, 0x01, 0x12, 0x34, 0x00, 0x56]) =
      [some 0, some 0, some 0, some 0, some 0x00, some 0x01, some 0x12, some 0x34, some 0x00, some 0x56, some 0] := by decide
/-- R171: high-impedance with CSn high; 00h before a decision instant that does not come. -/
theorem test_miso_idle : misoByte true (some 0) [0x00] 0 = none ∧ misoByte false none [0x1F] 3 = some 0 := by decide
/-- R171: most significant bit first. -/
theorem test_spi_bits : spiBits 0x80 = [true, false, false, false, false, false, false, false] := by decide

/-- Table 7.1. -/
theorem test_durations :
    (Frame.mk 0 0xFF .presence).duration = 62 ∧ (Frame.mk 0 1 (.ack 0 0 0 0)).duration = 92 ∧
      (Frame.mk 0 1 (.fetch 0 0 0 0 0 0)).duration = 112 ∧ (Frame.mk 0 0xFF (.announce true 4 10 0)).duration = 162 ∧
      (Frame.mk 0 1 (.write 0 0 0 0 0 (List.replicate 16 0))).duration = 432 ∧
      (Frame.mk 0 0xFF (.update 0 0 0 (List.replicate 64 0))).duration = 1382 ∧
      (Frame.mk 0 1 (.reply 0 0 0 0 0 0 64 (List.replicate 64 0))).duration = 1402 := by decide +kernel

/-! ### Turns -/

/-- Table 8.2. -/
theorem test_ranks :
    ([0, 1, 2, 3] : List Station).map (fun own => rank own 4 (some 0)) = [3, 0, 1, 2] ∧
      ([0, 1, 2, 3] : List Station).map (fun own => rank own 4 (some 2)) = [1, 2, 3, 0] ∧
      ([0, 1, 2, 3] : List Station).map (fun own => rank own 4 none) = [0, 1, 2, 3] := by decide
/-- Section 8.4: station 2 of a ring of 4 joins a silent line at 52 + 36 = 88 bt. -/
theorem test_listen_and_slot :
    let s := { joining with record := { fx.record with own := 2 }, view := none }
    s.record.listenPeriod = 52 ∧ s.slotCount = 36 := by decide
/-- Table 3.1: prescale 5 and count 3, after ticks 1, 4, 5, 10, 14 and 15. -/
theorem test_table_3_1 :
    let at' := fun k => (List.range k).foldl (fun c _ => Counter.tick 5 c) (Counter.load 5 3)
    at' 0 = ⟨5, 3, false⟩ ∧ at' 1 = ⟨4, 3, false⟩ ∧ at' 4 = ⟨1, 3, false⟩ ∧ at' 5 = ⟨5, 2, false⟩ ∧
      at' 10 = ⟨5, 1, false⟩ ∧ at' 14 = ⟨1, 1, false⟩ ∧ (at' 15).due = true := by decide

/-! ### Host commands, one or two steps a row -/

/-- R175: own number 5 with N 4 is taken; own number 32 is not. -/
theorem test_set_station :
    (after (.setStation 5 4 3 10 20 3) State.reset).record = { fx.record with own := 5 } ∧
      answer (.setStation 32 4 0 10 20 3) State.reset = [0x11] := by decide +kernel
/-- R176: the channel byte is examined for GATHER and PERIOD alone. -/
theorem test_set_page :
    (after (.setPage 10 (.self 0 8 0 1)) State.reset).variant 10 =
        .own { policy := .onWrite, remoteWrites := .accept, watch := true } { version := 0, span := none } ∧
      answer (.setPage 10 (.self 1 8 0 1)) State.reset = [0x11] := by decide +kernel
/-- R177: a count byte of FFh gives 256. -/
theorem test_set_channel :
    (after (.setChannel 7 2 64 0xFF) State.reset).channels[7] = { kind := .period, prescale := 64, count := 256, run := none } ∧
      answer (.setChannel 7 3 64 0xFF) State.reset = [0x11] := by decide +kernel
/-- R185: bits 7 to 1 of the second byte are ignored. -/
theorem test_set_mask :
    let s := after (.setMask 0x81 0xFE) fx
    s.mask = 0x81 ∧ s.notifyEnable = false ∧ s.intnLow = false := by decide +kernel
/-- R175's example: own number 5 and N 4 are refused at JOIN with BAD_STATION. -/
theorem test_join_bad_station :
    let s := after .join (after (.setStation 5 4 3 10 20 3) State.reset)
    s.response = [0x11] ∧ s.configError = .badStation ∧ s.station = .setup ∧ s.flags = 0x08 := by decide +kernel
/-- Section 11.1: a JOIN that passes. -/
theorem test_join_passes :
    let s := after .join State.reset
    s.station = .joining ∧ s.receiver = .recovering .joining 0 ∧ s.view = none ∧ s.listen = some 0 := by decide +kernel
/-- R92, R159: open requests are cancelled, a DONE one is kept. -/
theorem test_leave_active :
    let s := after .leave fx
    s.station = .leaving ∧ (s.table[0].map Request.phase) = some (.failed .cancelled) ∧ s.table[2] = fx.table[2] ∧
      s.table[15] = none ∧ s.replyQueue = [] := by decide +kernel
/-- R159: from MUTED straight to SETUP with LEFT. -/
theorem test_leave_muted :
    let s := after .leave muted
    s.station = .setup ∧ s.flag .left = true ∧ s.variant 4 = (State.reset.pages.set 4
      (mirrorPage 2 .send 2 true .empty none none .none))[4].variant := by decide +kernel
/-- R158: versions and spans are kept; refused in ACTIVE. -/
theorem test_rejoin :
    (after .rejoin muted).station = .joining ∧ (after .rejoin muted).variant 0 = fx.variant 0 ∧
      answer .rejoin fx = [0x10] := by decide +kernel
/-- R158: REJOIN taken first, then the duplicate-station frame, which finds the station JOINING and mutes it again; another
station's frame is not taken (R117), nor a duplicate-station frame once a bit time has come. -/
theorem test_rejoin_then_duplicate :
    (after .duplicateStationFrame rejoined).station = .muted ∧
      (after .duplicateStationFrame rejoined).mutedReason = .duplicateStation ∧
      after (.presenceFrame 2) rejoined = rejoined ∧
      (after .duplicateStationFrame (after .activityStart rejoined)).station = .joining ∧
      (after .duplicateStationFrame (idle { rejoined with pending := [] })).station = .joining := by decide +kernel
/-- R162: store words and descriptors stay, requests go. -/
theorem test_soft_reset :
    let s := after .softReset fx
    s.station = .setup ∧ s.memory = fx.memory ∧ s.table[0] = none ∧ s.notify = [] ∧ s.response = [0] := by decide +kernel
/-- Section 10.8: the words 1234h and 0056h of a FRESH mirror. -/
theorem test_read_mirror : answer (.read 4 0 2) fx = [0x00, 0x01, 0x12, 0x34, 0x00, 0x56] := by decide +kernel
/-- R14: a READ of a FETCH page takes the lowest FREE tag. -/
theorem test_read_fetch : answer (.read 6 0 16) fx = [0x01, 0x04] := by decide +kernel
/-- R20: 2..3 and 5..5 give 2..5 (section 11.2 has 0..1 and 5..5). -/
theorem test_write_widens_span :
    let s := after (.write 0 5 1 [0x1#16]) fx
    s.word 0 5 = 1 ∧ s.variant 0 = (ownPage .onWrite .accept true 5 (some { low := 2, high := 5 })).variant ∧
      s.publishQueue = [(0, .span)] := by decide +kernel
/-- Section 10.8: WRITE to a page with write route SEND. -/
theorem test_write_send : answer (.write 4 0 1 [0x1#16]) fx = [0x01, 0x04] := by decide +kernel
/-- R179: READ, attempt 1, DONE, version 9, one word; the entry is FREE afterwards. -/
theorem test_collect_done :
    let s := after (.collect 2) fx
    s.response = [0x00, 0, 1, 0, 9, 1, 0x12, 0x34] ∧ s.table[2] = none := by decide +kernel
/-- R86: a REFRESH entry is never reported. -/
theorem test_collect_refresh : answer (.collect 15) fx = [0x17] := by decide +kernel
/-- R26: a page with a span, and one without. -/
theorem test_flush : answer (.flush 0) fx = [0x00] ∧ answer (.flush 63) fx = [0x02] := by decide +kernel
/-- Table 10.4, bytes 0 to 9: ACTIVE, 11 entries FREE, one page queued, one notification. -/
theorem test_status :
    (answer .status fx).take 11 = [0, 2, 0, 0, 0, 0, 0, 0, 11, 1, 1] ∧ (answer .status fx).length = 23 := by decide +kernel
/-- R182: pages 4 to 6 in byte 0 and 40 and 41 in byte 5 of the owned set. -/
theorem test_peer : answer (.peer 2) fx = [0, 1, 10, 1, 10, 0x70, 0, 0, 0, 0, 0x03, 0, 0] := by decide +kernel
/-- R181. -/
theorem test_page_state :
    answer (.pageState 0) fx = [0, 0x40, 0, 5, 1, 2, 3, 1, 0] ∧ answer (.pageState 40) fx = [0, 2, 0, 2, 1, 19, 0, 1, 0] := by
  decide +kernel
/-- R182: the count less one, and the main count less one. -/
theorem test_channel_state :
    answer (.channelState 1) fx = [0, 2, 5, 2, 1, 5, 2] ∧ answer (.channelState 8) fx = [0x11] := by decide +kernel
/-- R188. -/
theorem test_pop_notify :
    answer .popNotify fx = [0, 4] ∧ (after .popNotify fx).notify = [] ∧ answer .popNotify State.reset = [0x02] := by
  decide +kernel
/-- R184. -/
theorem test_clear_events :
    let s := after (.clearEvents 0x20) { fx with flags := 0x21 }
    s.response = [0, 0x21] ∧ s.flags = 0x01 := by decide +kernel
/-- R173, R172. -/
theorem test_unknown_command : answer (.unknownCommand 0x05) fx = [0x1F] := by decide +kernel
theorem test_transaction_discarded : after (.transactionDiscarded ⟨false, [0x10, 0x28, 0x00]⟩) fx = fx := by decide +kernel
/-- R163. -/
theorem test_hardware_reset :
    let s := after .hardwareReset fx
    s.resetHeld = true ∧ s.memory = [] ∧ s.record.silence = 10 ∧ s.lde = false ∧ s.ltx = true := by decide +kernel
theorem test_reset_release : after .resetRelease (after .hardwareReset fx) = State.reset := by decide +kernel

/-! ### Ticks and expiries -/

/-- R38, R42: one tick at a reply timer, a channel, an age counter and the presence timer. -/
theorem test_tick :
    let s := after .tick fx
    (s.table[0].map Request.phase) = some (.sent { pre := 9, main := 20, due := false }) ∧
      s.channels[1].run = some { pre := 4, main := 3, due := false } ∧
      s.presenceTimer = some { pre := 99, main := 5, due := false } ∧ s.channels[0].run = none := by decide +kernel
/-- R46. -/
theorem test_gather_expiry :
    let s := after (.gatherChannelExpiry 0)
      { fx with channels := fx.channels.set 0 { Channel.reset with run := some { pre := 1, main := 1, due := true } }
                pages := fx.pages.set 1 (ownPage (.gather 0) .refuse false 0 (some { low := 0, high := 63 })) }
    s.channels[0].run = none ∧ s.publishQueue = [(0, .span), (1, .span)] := by decide +kernel
/-- R47: the extents of a page queued before and the reload. -/
theorem test_period_expiry :
    let s := after (.periodChannelExpiry 1)
      { fx with channels := fx.channels.set 1 { fx.channels[1] with run := some { pre := 1, main := 1, due := true } } }
    s.publishQueue = [(0, .span), (2, .full)] ∧ s.channels[1] = fx.channels[1] := by decide +kernel
/-- R84: at the retry limit of 3 the entry fails with TIMEOUT and REQUEST_DONE is set. -/
theorem test_reply_timeout :
    let s := after (.replyTimerExpiry 1) fx
    (s.table[1].map Request.phase) = some (.failed .timeout) ∧ s.flag .requestDone = true := by decide +kernel
/-- R63: the last version is kept. -/
theorem test_age_expiry :
    (after (.ageCounterExpiry 4)
      { fx with pages := fx.pages.set 4
                  (mirrorPage 2 .send 2 true .fresh (some 7) (some { pre := 1, main := 1, due := true }) .none) }).variant 4 =
      (mirrorPage 2 .send 2 true .stale (some 7) none .none).variant := by decide +kernel
/-- R166, R65, R89: page 41 of station 3 goes STALE and its refresh is freed; page 8 stays STALE. -/
theorem test_silence_expiry :
    let s := after (.silenceCounterExpiry 3) fx
    s.peers[3].state = .silent ∧ s.flags = 0x20 ∧ s.variant 41 = (mirrorPage 3 .deny 0 false .stale (some 32) none .none).variant ∧
      s.table[15] = none := by decide +kernel
/-- R146. -/
theorem test_presence_expiry :
    let s := after .presenceTimerExpiry { fx with presenceTimer := some { pre := 1, main := 1, due := true } }
    s.presenceMark = true ∧ s.presenceTimer = none := by decide +kernel
/-- R58: page 40 claims the lowest FREE tag; the first issue after a reset is 1 (R73). -/
theorem test_refresh_claim :
    let s := after .refreshClaim fx
    s.table[4] = some (entry .refresh 2 40 0 64 1 0 (.queued false)) ∧ s.sendOrder = [3, 4] ∧
      (s.variant 40).mark = .pending := by decide +kernel

/-! ### Frames from the line -/

/-- R117, R132. -/
theorem test_activity_start : (after .activityStart fx).receiver = .receiving ∧ (after .activityStart fx).accessTimer = none := by
  decide +kernel
/-- R55: D = 2 on a GAPPED page (section 11.5 has the like), and D = 0. -/
theorem test_update_gap :
    (after (.updateFrame 2 40 21 5 [0x7#16]) fx).variant 40 = (mirrorPage 2 .deny 0 false .gapped (some 21) none .wanted).variant ∧
      (after (.updateFrame 2 40 19 5 [0x7#16]) fx).counters.oldUpdates = 1 := by decide +kernel
/-- R55, R56: D = 1 keeps page 4 FRESH, writes the words and loads the age counter; version 0 follows 255 (R29). -/
theorem test_update_in_sequence :
    let s := after (.updateFrame 2 4 8 63 [0x7#16]) { fx with notify := [] }
    s.word 4 63 = 7 ∧ s.word 4 0 = 0x1234 ∧ s.notify = [4] ∧ s.variant 4 =
      (mirrorPage 2 .send 2 true .fresh (some 8) (some { pre := 100, main := 2, due := false }) .none).variant := by decide +kernel
/-- R99, R136. -/
theorem test_fetch_frame :
    let s := after (.fetchFrame 2 0 0 4 3 1 0) fx
    s.replyQueue = fx.replyQueue ++ [.reply 2 3 1 0 0 0 4] ∧ s.windowOpen = true ∧ s.accessTimer = some 0 := by decide +kernel
/-- R95: the selector takes the head first, so the arrival finds 7 entries and is served; the arrival first finds 8 and is
dropped. The own number is not found while a start has been taken (R127). -/
theorem test_overrun_orders :
    starting.replyQueue.length = 7 ∧ (after (.fetchFrame 2 0 0 4 3 1 0) starting).replyQueue.length = 8 ∧
      (after (.fetchFrame 2 0 0 4 3 1 0) starting).transmitter = .sending 0 ∧
      (after (.fetchFrame 2 0 0 4 3 1 0) { fx with replyQueue := List.replicate 8 (.ack 2 0 7 0 .done) }).counters.overruns = 1 ∧
      after (.fetchFrame 2 0 0 4 3 1 0) (after .activityStart starting) = after .activityStart starting ∧
      after .duplicateStationFrame starting = starting := by decide +kernel
/-- Section 11.3: a hit is answered with the recorded status and applies nothing. -/
theorem test_write_frame_hit :
    let s := after (.writeFrame 2 0 4 0 7 1 [0x00C8#16]) fx
    s.replyQueue = fx.replyQueue ++ [.ack 2 0 7 1 .done] ∧ s.memory = fx.memory := by decide +kernel
/-- Section 11.3: a miss with status DONE; page 0 is watched (R22). -/
theorem test_write_frame_miss :
    let s := after (.writeFrame 2 0 4 1 7 0 [0x00C9#16]) fx
    s.word 0 4 = 0x00C9 ∧ s.filter = fx.filter ++ [{ writer := 2, tag := 1, issue := 7, status := .done }] ∧
      s.notify = [4, 0] := by decide +kernel
/-- Section 11.5: a refresh reply with D = 0 makes the page FRESH and frees the entry. -/
theorem test_reply_to_refresh :
    let s := after (.replyFrame 3 15 9 0 0 41 32 64 (List.replicate 64 5)) fx
    s.variant 41 = (mirrorPage 3 .deny 0 false .fresh (some 32) none .none).variant ∧ s.table[15] = none ∧ s.word 41 63 = 5 := by
  decide +kernel
/-- R80, and R79: another attempt is late. -/
theorem test_reply_to_read :
    (((after (.replyFrame 2 0 1 0 0 6 9 2 [1, 2]) fx).table[0].map Request.phase) = some (.done .done (some (9, [1, 2])))) ∧
      (after (.replyFrame 2 0 1 1 0 6 9 2 [1, 2]) fx).counters.lateReplies = 1 := by decide +kernel
/-- R81, and R79: a status code of 5 is unknown. -/
theorem test_ack_frame :
    ((after (.ackFrame 2 1 7 3 3) fx).table[1].map Request.phase) = some (.done .refused none) ∧
      (after (.ackFrame 2 1 7 3 5) fx).counters.malformed = 1 := by decide +kernel
/-- Section 11.1: a JOIN-flagged ANNOUNCE empties the joiner's mirrors, sets the response mark and queues the welcome. -/
theorem test_announce_join :
    let s := after (.announceFrame 3 true 4 10 (BitVec.twoPow 64 8 ||| BitVec.twoPow 64 41)) fx
    (s.variant 41) = (mirrorPage 3 .deny 0 false .empty none none .none).variant ∧ s.responseMark = true ∧
      s.publishQueue = [(0, .full), (1, .full), (2, .full), (63, .full)] ∧ s.table[15] = none := by decide +kernel
/-- R169, R170: page 4 of station 2 announced by station 3, and page 8 missing from its set. -/
theorem test_announce_dispute :
    let s := after (.announceFrame 3 false 4 10 (BitVec.twoPow 64 4 ||| BitVec.twoPow 64 41)) fx
    s.disputed 4 = true ∧ s.disputed 8 = true ∧ s.disputed 41 = false ∧ s.flag .dispute = true := by decide +kernel
/-- R165: a SILENT record becomes PRESENT with PEER_CHANGE. -/
theorem test_presence_frame :
    let s := after (.presenceFrame 0) fx
    s.peers[0].state = .present { pre := 100, main := 10, due := false } ∧ s.flags = 0x20 ∧ s.view = some 0 := by decide +kernel
/-- R167. -/
theorem test_leave_frame :
    let s := after (.leaveFrame 2) fx
    s.peers[2] = { state := .absent, announced := none } ∧ (s.table[0].map Request.phase) = some (.failed .ownerLost) ∧
      s.variant 4 = (mirrorPage 2 .send 2 true .stale (some 7) none .none).variant := by decide +kernel
/-- R126. -/
theorem test_duplicate_station :
    let s := after .duplicateStationFrame fx
    s.station = .muted ∧ s.mutedReason = .duplicateStation ∧ s.flag .muted = true ∧ s.view = some 1 := by decide +kernel
/-- R119: a sender byte that names no station leaves the view UNKNOWN. -/
theorem test_malformed_frame :
    let s := after (.malformedFrame 32) fx
    s.counters.malformed = 1 ∧ s.view = none ∧ s.peers = fx.peers := by decide +kernel
/-- R120: presence alone. -/
theorem test_other_target : (after (.otherTargetFrame 0) fx).peers[0].state.isPresent = true ∧
    (after (.otherTargetFrame 0) fx).windowOpen = false := by decide +kernel
/-- R117. -/
theorem test_found_broken :
    (after (.frameFoundBroken (.crcError 8)) fx).receiver = .recovering .brokenFrame 8 := by decide +kernel
/-- Section 11.4: counted once, view UNKNOWN, timer at count 10. -/
theorem test_broken_frame_end :
    let s := after .brokenFrameEnd (after (.frameFoundBroken (.crcError 8)) fx)
    s.counters.broken = 1 ∧ s.view = none ∧ s.accessTimer = some 10 := by decide +kernel
/-- Section 11.4: the frame's end lies 8 bit times before the finding, and the clock brings the report 2 bit times after it. -/
theorem test_clock_broken_frame_end :
    let at' := fun quiet => idle { quietLine with receiver := .recovering .brokenFrame quiet }
    (at' 8).receiver = .recovering .brokenFrame 9 ∧ (at' 9).receiver = .recovering .brokenFrame 10 ∧
      (at' 10).pending = [.brokenFrameEnd] := by decide +kernel
/-- R117: no report and no count. -/
theorem test_recovering_end :
    let s := after .recoveringEnd joining
    s.receiver = .resting ∧ s.counters.broken = 0 ∧ s.accessTimer = none := by decide +kernel

/-! ### Turns -/

/-- R136, R137, R132: the window at Q, the slot of rank 0 at Q + W, and the count back at Q at the end of the cycle. -/
theorem test_clock_turns :
    (idle { quietLine with accessTimer := some 11, windowOpen := true }).pending = [.replyWindow] ∧
      (idle { quietLine with accessTimer := some 19 }).pending = [.rotationSlot] ∧
      (idle { quietLine with accessTimer := some 43 }).accessTimer = some 12 := by decide +kernel
/-- R38, R111, R122, R135: at 10 Mbit/s 2 REFCLK periods a bit; 16 jam bits; 52 bt on a ring of 4. -/
theorem test_clock_tick_abort_listen :
    (idle { quietLine with refclk := 1998 }).pending = [.tick] ∧ (idle { quietLine with refclk := 1997 }).pending = [] ∧
      (idle (jamming .presence 0 quietLine)).pending = [.abort] ∧
      (idle { joiningQuiet with listen := some 51 }).pending = [.listenPeriodEnd] := by decide +kernel
/-- R135. -/
theorem test_listen_period_end :
    let s := after .listenPeriodEnd joiningQuiet
    s.accessTimer = some 0 ∧ s.listen = none := by decide +kernel
/-- R136, R97: the ACK owed goes out in the window. -/
theorem test_reply_window :
    let s := after .replyWindow { fx with windowOpen := true, accessTimer := some 11 }
    s.replyQueue = [] ∧ s.transmitter = .sending 0 ∧
      (s.buffer.map TxFrame.frame) = some { sender := 1, target := 2, body := .ack 0 7 0 0 } := by decide +kernel
/-- R30: version 5 to 6, two words from offset 2, span removed. -/
theorem test_rotation_slot_update :
    let s := after .rotationSlot { fx with replyQueue := [], sendOrder := [] }
    (s.buffer.map TxFrame.frame) = some { sender := 1, target := 0xFF, body := .update 0 6 2 [0x00C8#16, 0] } ∧
      s.variant 0 = (ownPage .onWrite .accept true 6 none).variant ∧ s.publishQueue = [] := by decide +kernel
/-- R141; and section 11.1: rank 0 after station 0 gives the slot at 20 bt. -/
theorem test_rotation_slot_leave :
    let s := after .rotationSlot leaving
    (s.buffer.map TxFrame.origin) = some .leave ∧ s.accessTimer = some 20 := by decide +kernel
/-- R122. -/
theorem test_readback_mismatch :
    let s := after .readbackMismatch (sending .presence fx)
    s.transmitter = .jamming 0 ∧ s.buffer = (sending .presence fx).buffer ∧ s.lde = true := by decide +kernel
/-- Section 11.4: the frame is HELD and the abort count is 1. -/
theorem test_abort_holds :
    let s := after .abort (jamming (.update 0) 0 fx)
    (s.buffer.map TxFrame.driven) = some false ∧ s.abortCount = 1 ∧ s.station = .active := by decide +kernel
/-- R144: the eighth abort mutes. -/
theorem test_abort_eighth :
    let s := after .abort (jamming (.update 0) 7 fx)
    s.station = .muted ∧ s.mutedReason = .aborts ∧ s.buffer = none ∧ s.abortCount = 0 := by decide +kernel
/-- Section 11.1: the JOIN ANNOUNCE completes. -/
theorem test_completion_joins :
    let s := after .completion (sending .joinAnnounce { joiningQuiet with pages := fx.pages, channels := fx.channels })
    s.station = .active ∧ s.flags = 0x01 ∧ s.publishQueue = [(0, .full), (1, .full), (2, .full), (63, .full)] ∧
      s.presenceTimer = some { pre := 100, main := 5, due := false } := by decide +kernel
/-- R78: a completed request frame starts its reply timer. -/
theorem test_completion_sent :
    let s := after .completion (sending (.request 3) { fx with
      table := fx.table.set 3 (some (entry .read 2 6 0 16 1 0 (.queued true))), sendOrder := [] })
    (s.table[3].map Request.phase) = some (.sent { pre := 10, main := 20, due := false }) ∧ s.view = some 1 := by decide +kernel

/-! ### Witnesses

For each obligation with hypotheses, concrete states and operands that meet them: `witness_<obligation>`. A clause over a
range has its values at the ends of the range. Where every hypothesis is met by `fx` alone, one line says so. -/

/-- Most statements ask for no more than RESETn high. -/
theorem witness_reset_high : fx.resetHeld = false ∧ State.reset.resetHeld = false := by decide

theorem witness_StepRunsFrontCommand :
    { fx with pending := [.join, .tick] }.pending = Instr.join :: [.tick] ∧ fx.pending = [] ∧ fx.resetHeld = false ∧
      starting.pending = [] ∧ starting.resetHeld = false ∧ quietLine.pending = [] ∧ quietLine.resetHeld = false := by
  decide +kernel

/-- The own first bit to come; and each kind of row due: a reply timer and a silence counter of the fixture and its claim, both
kinds of channel, an age counter, the presence timer, and a rest of 10 bit times. -/
theorem witness_StepRunsFrontCommand_due :
    OwnStart starting ∧ ¬ OwnStart fx ∧ DueRow fx (.replyTimerExpiry 1) ∧ DueRow fx (.silenceCounterExpiry 3) ∧
      DueRow fx .refreshClaim ∧
      (let k : Counter := { pre := 1, main := 1, due := true }
       let s := setVariant 4 (mirrorPage 2 .send 2 true .fresh (some 7) (some k) .none).variant
         { fx with channels := (fx.channels.set 0 { Channel.reset with run := some k }).set 1 { fx.channels[1] with run := some k }
                   presenceTimer := some k, receiver := .recovering .brokenFrame 10 }
       ¬ OwnStart s ∧ DueRow s (.gatherChannelExpiry 0) ∧ DueRow s (.periodChannelExpiry 1) ∧ DueRow s (.ageCounterExpiry 4) ∧
         DueRow s .presenceTimerExpiry ∧ DueRow s .brokenFrameEnd) ∧
      DueRow { joining with receiver := .recovering .joining 10 } .recoveringEnd := by
  simp only [← ownStart_iff, ← mem_dueNow]; decide +kernel

/-- The ends of a slot and of a listen period, a jam, and a rest of 9 bit times with nothing due. -/
theorem witness_StepRunsFrontCommand_clock :
    NothingDue { quietLine with accessTimer := some 19 } ∧ NothingDue { quietLine with accessTimer := some 11, windowOpen := true } ∧
      NothingDue { joiningQuiet with listen := some 51 } ∧ NothingDue (jamming .presence 0 quietLine) ∧
      NothingDue { quietLine with receiver := .recovering .brokenFrame 9 } := by
  simp only [nothingDue_iff]; decide +kernel

theorem witness_EveryCommandAnswersNext :
    (after .hardwareReset fx).resetHeld = true ∧ Instr.join ≠ .hardwareReset ∧ Instr.join ≠ .resetRelease := by decide +kernel

/-- Each refused value next to its range, and both ends of every range. -/
theorem witness_SetStationRecord :
    fx.station ≠ .setup ∧ State.reset.station = .setup ∧ 31 < (32 : Byte).toNat ∧ (1 : Byte).toNat < 2 ∧
      32 < (33 : Byte).toNat ∧ 3 < (4 : Byte).toNat ∧ 7 < (8 : Byte).toNat ∧
      ((31 : Station).val = (31 : Byte).toNat ∧ 2 ≤ (2 : Byte).toNat ∧ (32 : Byte).toNat ≤ 32 ∧ 2 ≤ (2 : Byte).toNat ∧
        (1 : Byte) ≠ 0 ∧ (7 : Byte).toNat ≤ 7) := by decide

theorem witness_SetPageDescriptor :
    State.reset.station = .setup ∧ fx.station ≠ .setup ∧ (63 : PageNo).val = (63 : Byte).toNat ∧ 63 < (64 : Byte).toNat ∧
      (7 : ChannelNo).val = (7 : Byte).toNat ∧ 7 < (8 : Byte).toNat ∧ 3 < (4 : Byte).toNat ∧ 1 < (2 : Byte).toNat ∧
      PageArgs.self 1 7 0 1 = .self 1 7 0 1 ∧ PageArgs.peer 31 0 1 255 0 = .peer 31 0 1 255 0 ∧
      PageArgs.reserved 0x41 = .reserved 0x41 := by decide

theorem witness_SetChannelRecord :
    State.reset.station = .setup ∧ fx.station ≠ .setup ∧ 7 < (8 : Byte).toNat ∧ 2 < (3 : Byte).toNat ∧
      64 < (65 : Byte).toNat ∧ (7 : ChannelNo).val = (7 : Byte).toNat ∧ 1 ≤ (1 : Byte).toNat ∧ (64 : Byte).toNat ≤ 64 := by
  decide

theorem witness_MaskChanges :
    exec .hardwareReset fx = .next (after .hardwareReset fx) ∧ exec .join fx = .next (after .join fx) ∧
      (∀ f g, Instr.join ≠ .setMask f g) ∧ Instr.join ≠ .hardwareReset := ⟨rfl, rfl, nofun, nofun⟩

/-- A JOIN refused in ACTIVE, for the own number, and for page 5 naming the own number; and one that passes. -/
theorem witness_JoinChecks :
    fx.station ≠ .setup ∧ (4 ≤ ({ fx.record with own := 4 } : StationRecord).own.val) ∧
      PageRefused (setVariant 5 (.fetch { owner := 0, writeRoute := .send, watch := false }) State.reset) 5 .badOwner ∧
      (∀ q : PageNo, q < 5 →
        (setVariant 5 (.fetch { owner := 0, writeRoute := .send, watch := false }) State.reset).variant q = .none) ∧
      State.reset.record.own.val < State.reset.record.ring ∧ ∀ p e, ¬ PageRefused State.reset p e := by
  have h : ∀ p, State.reset.variant p = .none := by decide +kernel
  refine ⟨by decide, by decide, .inl ⟨rfl, 0, by decide +kernel, .inr (by decide)⟩, by decide +kernel, by decide, ?_⟩
  intro p e
  simp [PageRefused, h, PageVariant.peerOwner]

/-- A GATHER page on a PERIOD channel. -/
theorem witness_JoinChecks_channel :
    PageRefused (setVariant 5 (ownPage (.gather 1) .accept false 0 none).variant { fx with station := .setup }) 5 .badChannel :=
  .inr ⟨rfl, { policy := .gather 1, remoteWrites := .accept, watch := false }, { version := 0, span := none },
    by decide +kernel, .inl ⟨1, rfl, by decide +kernel⟩⟩

theorem witness_RejoinFromMuted :
    fx.station ≠ .muted ∧ muted.station = .muted ∧ muted.resetHeld = false ∧ muted.transmitter = .idle := by decide +kernel

theorem witness_LeaveFromActive :
    fx.station = .active ∧ State.reset.station = .setup ∧ joining.station = .joining ∧ leaving.station = .leaving := by
  decide +kernel

theorem witness_EntryToSetup :
    muted.station = .muted ∧ leaving.station = .leaving ∧ leaving.resetHeld = false ∧
      (sending .leave leaving).transmitter = .sending 0 ∧ ((sending .leave leaving).buffer.map TxFrame.origin) = some .leave ∧
      (jamming .leave 7 leaving).transmitter = .jamming 16 ∧ (jamming .leave 7 leaving).abortCount = 7 ∧
      joiningQuiet.station = .joining ∧ joiningQuiet.hears = true ∧ (2 : Station) ≠ joiningQuiet.record.own ∧
      (3 : Byte).toNat ≠ joiningQuiet.record.ring := by decide +kernel

theorem witness_EntryToMuted :
    fx.station = .active ∧ fx.findsTwin = true ∧ TransmitSound fx ∧ muted.station = .muted ∧ muted.findsTwin = true ∧
      rejoined.station = .joining ∧ rejoined.findsTwin = true ∧ TransmitSound rejoined ∧
      (jamming (.update 0) 7 fx).transmitter = .jamming 16 ∧ (jamming (.update 0) 7 fx).abortCount = 7 := by decide +kernel

/-- The last offset and count that fit, the first that do not, and a page of each variant. -/
theorem witness_ReadAnswers :
    64 < (49 : Byte).toNat + (16 : Byte).toNat ∧ (48 : Byte).toNat + (16 : Byte).toNat ≤ 64 ∧
      (63 : Byte).toNat + (1 : Byte).toNat ≤ 64 ∧ 16 < (17 : Byte).toNat ∧ fx.disputed 7 = true ∧
      fx.disputed 9 = false ∧ fx.variant 9 = .none ∧ (fx.variant 0).isOwn = true ∧ fx.disputed 0 = false ∧
      fx.variant 5 = (mirrorPage 2 .deny 0 false .empty none none .none).variant ∧
      (fx.variant 4).peerOwner = some 2 ∧ fx.disputed 4 = false := by decide +kernel

/-- Refused outside ACTIVE, with the owner SILENT, and with every entry taken; allocated at the lowest FREE tag. -/
theorem witness_HostRequests :
    fx.variant 6 = .fetch { owner := 2, writeRoute := .send, watch := false } ∧ fx.disputed 6 = false ∧
      fx.isPresent 2 = true ∧ fx.isPresent 0 = false ∧ muted.station ≠ .active ∧ fx.table[4] = none ∧
      (∀ u : Tag, u < 4 → fx.table[u] ≠ none) ∧
      (∀ t : Tag, { fx with table := Vector.replicate 16 fx.table[0] }.table[t] ≠ none) ∧
      (fx.variant 4).writeRoute = some .send ∧ fx.disputed 4 = false ∧ [0x1#16].length = (1 : Byte).toNat := by decide +kernel

theorem witness_HostWrites :
    [0x1#16].length = writeWordCount 1 ∧ ([] : List Word).length = writeWordCount 17 ∧ fx.disputed 7 = true ∧
      fx.variant 9 = .none ∧ (fx.variant 5).writeRoute = some .deny ∧ fx.disputed 5 = false ∧ MemorySound fx ∧
      (fx.variant 63).isOwn = true ∧ fx.disputed 63 = false := by decide +kernel

/-- An entry in each state that COLLECT tells apart, and the first tag out of range. -/
theorem witness_CollectAnswers :
    15 < (16 : Byte).toNat ∧ (15 : Tag).val = (15 : Byte).toNat ∧ fx.table[4] = none ∧
      (fx.table[15].map Request.kind) = some .refresh ∧ (fx.table[3].map Request.phase) = some (.queued false) ∧
      (fx.table[0].map Request.phase) = some (.sent { pre := 10, main := 20, due := false }) ∧
      (fx.table[2].map Request.phase) = some (.done .done (some (9, [0x1234#16]))) ∧
      (muted.table[1].map Request.phase) = some (.failed .muted) ∧ (fx.table[1].map Request.kind) = some (.write [0x00C8#16]) ∧
      ((after (.ackFrame 2 1 7 3 3) fx).table[1].map Request.phase) = some (.done .refused none) := by decide +kernel

theorem witness_FlushAnswers :
    muted.station ≠ .active ∧ fx.station = .active ∧ 63 < (64 : Byte).toNat ∧ (63 : PageNo).val = (63 : Byte).toNat ∧
      (fx.variant 4).isOwn = false ∧ fx.variant 3 = (ownPage .quiet .accept false 0 none).variant ∧
      fx.variant 7 = (ownPage .onWrite .accept false 9 none).variant ∧ fx.disputed 7 = true ∧
      fx.variant 63 = (ownPage .onWrite .accept false 255 none).variant ∧ fx.disputed 63 = false ∧
      fx.variant 0 = (ownPage .onWrite .accept true 5 (some { low := 2, high := 3 })).variant := by decide +kernel

theorem witness_StateReads :
    31 < (32 : Byte).toNat ∧ (31 : Station).val = (31 : Byte).toNat ∧ fx.peers[31].state = .absent ∧
      fx.peers[0].state = .silent ∧ fx.peers[2].state = .present { pre := 100, main := 10, due := false } ∧
      fx.peers[2].announced = some (0x30000000070#64, 10) ∧ fx.peers[3].announced = none ∧ 63 < (64 : Byte).toNat ∧
      fx.variant 6 = .fetch { owner := 2, writeRoute := .send, watch := false } ∧ 7 < (8 : Byte).toNat ∧
      (7 : ChannelNo).val = (7 : Byte).toNat ∧ (0 : PageNo) ∈ fx.publishQueue.map Prod.fst ∧
      (63 : PageNo) ∉ fx.publishQueue.map Prod.fst := by decide +kernel

/-- A queue of one page, one of 15 pages behind the head, and a full one. -/
theorem witness_NotifyQueueOrder :
    State.reset.notify = [] ∧ fx.notify = 4 :: [] ∧ (4 : PageNo) ∉ ([] : List PageNo) ∧
      ((List.finRange 64).take 16).length = 16 ∧ ((List.finRange 64).drop 1 |>.take 15).length = 15 ∧
      (20 : PageNo) ∉ (List.finRange 64).take 16 := by decide +kernel

theorem witness_ClearEventsReports : (0x20 : Byte).getLsbD Event.peerChange.bit = true := by decide

theorem witness_InterruptLevel :
    exec .hardwareReset fx = .next (after .hardwareReset fx) ∧
      exec .resetRelease (after .hardwareReset fx) = .next (after .resetRelease (after .hardwareReset fx)) ∧
      exec .softReset fx = .next (after .softReset fx) := ⟨rfl, rfl, rfl⟩

theorem witness_FlagsTellEvents :
    exec (.silenceCounterExpiry 3) fx = .next (after (.silenceCounterExpiry 3) fx) ∧
      fx.flag .peerChange = false ∧ (after (.silenceCounterExpiry 3) fx).flag .peerChange = true ∧
      (after (.clearEvents 0x20) { fx with flags := 0x20 }).flag .peerChange = false ∧ muted.station = .muted ∧
      muted.findsTwin = true := ⟨rfl, by decide +kernel⟩

/-- A watched mirror, with room in the notify queue and with 16 other pages there. -/
theorem witness_FlagsTellEvents_notify :
    AppliesToWatched (.updateFrame 2 4 8 63 [0x7#16]) fx 4 ∧
      AppliesToWatched (.updateFrame 2 4 8 63 [0x7#16]) { fx with notify := (List.finRange 64).drop 48 } 4 ∧
      (4 : PageNo) ∉ (List.finRange 64).drop 48 ∧ 16 ≤ ((List.finRange 64).drop 48).length :=
  ⟨⟨63, [0x7#16], rfl, by decide +kernel, .inl ⟨2, 8, 63, _, _, rfl, rfl, by decide +kernel, by decide, by decide,
      by decide +kernel, rfl, rfl, rfl, .inr ⟨7, rfl, by decide, by decide⟩⟩⟩,
    ⟨63, [0x7#16], rfl, by decide +kernel, .inl ⟨2, 8, 63, _, _, rfl, rfl, by decide +kernel, by decide, by decide,
      by decide +kernel, rfl, rfl, rfl, .inr ⟨7, rfl, by decide, by decide⟩⟩⟩,
    by decide +kernel, by decide +kernel⟩

/-- A watched owned page and a watched mirror under refresh. -/
theorem witness_FlagsTellEvents_service :
    AppliesToWatched (.writeFrame 2 0 63 1 7 0 [0x00C9#16]) fx 0 ∧
      AppliesToWatched (.replyFrame 3 15 9 0 0 41 159 64 (List.replicate 64 0))
        (setVariant 41 (mirrorPage 3 .deny 0 true .gapped (some 32) none .pending).variant fx) 41 :=
  ⟨⟨63, [0x00C9#16], rfl, by decide +kernel, .inr (.inr ⟨2, 0, 63, 1, 7, 0, _, _, rfl, rfl, by decide +kernel, rfl,
      by decide +kernel, by decide +kernel, by decide, by decide +kernel, rfl, rfl, rfl, by decide, by decide, by decide⟩)⟩,
    ⟨0, List.replicate 64 0, rfl, by decide +kernel, .inr (.inl ⟨15, 0, 41, 159,
      entry .refresh 3 41 0 64 9 0 (.sent { pre := 3, main := 4, due := false }), _,
      { owner := 3, writeRoute := .deny, ageLimit := 0, watch := true },
      { state := .gapped, last := some 32, age := none, mark := .pending }, 32, rfl, rfl, by decide +kernel,
      by decide +kernel, by decide, by decide +kernel, rfl, rfl, rfl, rfl, by decide +kernel, rfl, rfl, by decide, rfl,
      by decide⟩)⟩⟩

theorem witness_TransactionsWithoutEffect :
    isCommandCode 0x05 = false ∧ isCommandCode 0xFF = false ∧ (Instr.read 0x28 0 2).wf = true ∧
      encodeCommand (.read 0x28 0 2) = some [0x10, 0x28, 0x00, 0x02] ∧
      (Transaction.mk true [0x12, 3]).sawReset = true ∧ 3 < [0x10#8, 0x28, 0x00, 0x02].length := by decide

theorem witness_CountAfterTicks : 1 ≤ 1 ∧ 14 < 5 * 3 ∧ 5 * 3 ≤ 15 := by decide

theorem witness_TickReachesTimers :
    (fx.table[0].map Request.phase) = some (.sent { pre := 10, main := 20, due := false }) ∧
      fx.peers[2].state = .present { pre := 100, main := 10, due := false } ∧ fx.isPresent 0 = false ∧ fx.table[4] = none := by
  decide +kernel

theorem witness_ChannelExpiries :
    let k : Counter := { pre := 1, main := 1, due := true }
    let c0 := { Channel.reset with run := some k }
    let c1 := { fx.channels[1] with run := some k }
    let s := { fx with channels := (fx.channels.set 0 c0).set 1 c1 }
    s.station = .active ∧ s.channels[0].kind ≠ .period ∧ s.channels[0].run = some k ∧ s.channels[1].kind = .period ∧
      s.channels[1].run = some k ∧ fx.channels[1].run = some { pre := 5, main := 3, due := false } := by decide +kernel

/-- A timer that is not due; an attempt below the retry limit of 3, one at it, and a refresh at a limit of 0. -/
theorem witness_ReplyTimeouts :
    let due : Phase := .sent { pre := 1, main := 1, due := true }
    let s := { fx with
      record := { fx.record with retryLimit := 0 }
      table := (fx.table.set 0 (some (entry .read 2 6 10 2 1 2 due))).set 15 (some (entry .refresh 3 41 0 64 9 0 due)) }
    fx.table[0] = some (entry .read 2 6 10 2 1 0 (.sent { pre := 10, main := 20, due := false })) ∧
      fx.table[1] = some (entry (.write [0x00C8#16]) 2 4 4 1 7 3 due) ∧ fx.record.retryLimit = 3 ∧
      s.table[0] = some (entry .read 2 6 10 2 1 2 due) ∧ s.table[15] = some (entry .refresh 3 41 0 64 9 0 due) ∧
      s.record.retryLimit = 0 ∧
      s.variant 41 = (mirrorPage 3 .deny 0 false .gapped (some 32) none .pending).variant := by decide +kernel

theorem witness_AgeAndPresenceExpiries :
    let k : Counter := { pre := 1, main := 1, due := true }
    let s := { setVariant 4 (mirrorPage 2 .send 2 true .fresh (some 7) (some k) .none).variant fx with presenceTimer := some k }
    s.variant 4 = (mirrorPage 2 .send 2 true .fresh (some 7) (some k) .none).variant ∧ s.presenceTimer = some k ∧
      fx.variant 8 = (mirrorPage 3 .deny 0 false .stale (some 254) none .none).variant := by decide +kernel

theorem witness_PeerLost :
    fx.peers[3].state = .present { pre := 1, main := 1, due := true } ∧
      fx.peers[2].state = .present { pre := 100, main := 10, due := false } ∧ fx.hears = true ∧ fx.record.own ≠ 2 ∧
      fx.peers[2].state ≠ .absent ∧ fx.peers[31].state = .absent := by decide +kernel

/-- Page 40 alone qualifies, and tag 4 is the lowest that is FREE. -/
theorem witness_RefreshClaims :
    let wants := claimReady fx
    muted.station ≠ .active ∧ fx.station = .active ∧
      (∀ p, wants p = true ↔ ∃ d r, fx.variant p = .mirror d r ∧ r.mark = .wanted ∧ Present fx d.owner) ∧
      ((List.finRange 64).filter wants).zip ((List.finRange 16).filter fun u => fx.table[u].isNone) = [(40, 4)] :=
  ⟨by decide +kernel, rfl, claimReady_iff fx, by decide +kernel⟩

theorem witness_GoodFramesRenewPresence :
    fx.hears = true ∧ starting.hears = true ∧ fx.record.own ≠ 31 ∧ 31 < (32 : Byte).toNat ∧ joining.hears = false ∧
      rejoined.hears = false ∧ frameSender (.presenceFrame 2) = some 2 ∧ (2 : Byte) ≠ byteOf joining.record.own.val ∧
      joining.findsTwin = false ∧ starting.findsTwin = false := by decide +kernel

/-- Distances 1, 2, 127, 128 and 0 from last version 7, and the last word that fits. -/
theorem witness_UpdateFrames :
    fx.hears = true ∧ fx.record.own ≠ 2 ∧ updateWf [0x1#16] = true ∧ updateWf (List.replicate 64 0) = true ∧
      64 < (64 : Byte).toNat + [0x1#16].length ∧ (63 : Byte).toNat + [0x1#16].length ≤ 64 ∧ fx.variant 9 = .none ∧
      fx.disputed 7 = true ∧ (fx.variant 0).isOwn = true ∧ (fx.variant 8).peerOwner = some 3 ∧
      fx.variant 6 = .fetch { owner := 2, writeRoute := .send, watch := false } ∧ MemorySound fx ∧
      (fx.variant 4 = (mirrorPage 2 .send 2 true .fresh (some 7) (some { pre := 100, main := 2, due := false }) .none).variant) ∧
      ((8 : Byte) - 7).toNat = 1 ∧ ((134 : Byte) - 7).toNat = 127 ∧ ((135 : Byte) - 7).toNat = 128 := by decide +kernel

theorem witness_FetchFrames :
    fx.hears = true ∧ fx.record.own ≠ 2 ∧ fx.station = .active ∧ fx.replyQueue.length < 8 ∧
      8 ≤ { fx with replyQueue := List.replicate 8 (.ack 2 0 7 0 .done) }.replyQueue.length ∧ muted.station ≠ .active ∧
      starting.hears = true ∧ starting.station = .active ∧ starting.replyQueue.length < 8 := by decide +kernel

theorem witness_WriteFrames :
    fx.hears = true ∧ writeFrameWf (List.replicate 64 0) = true ∧ fx.replyQueue.length < 8 ∧
      (fx.filter.find? fun h => h.writer = 2 ∧ h.tag = 0 ∧ h.issue = 7) = some { writer := 2, tag := 0, issue := 7, status := .done } ∧
      (∀ h ∈ fx.filter, ¬ (h.writer = 2 ∧ h.tag = 1 ∧ h.issue = 7)) ∧ 63 < (64 : Byte).toNat ∧ fx.disputed 7 = true ∧
      (fx.variant 4).isOwn = false ∧ fx.variant 1 = (ownPage (.gather 0) .refuse false 0 none).variant ∧
      (48 : Byte).toNat + (List.replicate 16 (0 : Word)).length ≤ 64 ∧
      fx.variant 0 = (ownPage .onWrite .accept true 5 (some { low := 2, high := 3 })).variant := by decide +kernel

theorem witness_AnswersToRequests :
    fx.hears = true ∧ fx.record.own ≠ 2 ∧ replyWf 0 2 [1, 2] = true ∧ replyWf 1 0 [] = true ∧ replyWf 0 1 [1] = true ∧
      4 < (5 : Byte).toNat ∧ remoteCode .range = 4 ∧
      fx.table[0] = some (entry .read 2 6 10 2 1 0 (.sent { pre := 10, main := 20, due := false })) ∧
      fx.table[1] = some (entry (.write [0x00C8#16]) 2 4 4 1 7 3 (.sent { pre := 1, main := 1, due := true })) ∧
      fx.table[4] = none := by decide +kernel

/-- Distances 0, 127 and 128 from last version 32. -/
theorem witness_RefreshReplies :
    fx.hears = true ∧ fx.record.own ≠ 3 ∧ MemorySound fx ∧ replyWf 0 64 (List.replicate 64 0) = true ∧
      replyWf 0 63 (List.replicate 63 0) = true ∧ replyWf 4 0 [] = true ∧
      fx.table[15] = some (entry .refresh 3 41 0 64 9 0 (.sent { pre := 3, main := 4, due := false })) ∧
      fx.variant 41 = (mirrorPage 3 .deny 0 false .gapped (some 32) none .pending).variant ∧
      ((159 : Byte) - 32).toNat = 127 ∧ ((160 : Byte) - 32).toNat = 128 := by decide +kernel

/-- A page newly in dispute for each of the three reasons of R169, and a refresh to be freed. -/
theorem witness_AnnounceFrames :
    fx.hears = true ∧ fx.record.own ≠ 3 ∧ (4 : Byte).toNat = fx.record.ring ∧ (5 : Byte).toNat ≠ fx.record.ring ∧
      fx.station ≠ .joining ∧ fx.disputed 0 = false ∧ (fx.variant 0).isOwn = true ∧ (fx.variant 4).peerOwner = some 2 ∧
      (fx.variant 8).peerOwner = some 3 ∧ (0x1 : PageSet).getLsbD 0 = true ∧ (0x1 : PageSet).getLsbD 8 = false ∧
      (fx.table[15].map Request.isRefresh) = some true := by decide +kernel

theorem witness_ReceiverReports :
    fx.station ≠ .setup ∧ fx.receiver = .resting ∧ joining.receiver = .recovering .joining 0 ∧
      rejoined.receiver = .recovering .rejoined 0 ∧ RecoveryCause.rejoined ≠ .brokenFrame ∧
      (after .activityStart fx).receiver = .receiving ∧
      (after (.frameFoundBroken (.shortFrame 10)) fx).receiver = .recovering .brokenFrame 10 ∧ fx.transmitter = .idle ∧
      joiningQuiet.station = .joining ∧ joiningQuiet.listen = some 52 ∧ joiningQuiet.receiver = .resting := by decide +kernel

theorem witness_RankInRotation :
    (31 : Station).val < 32 ∧ 32 ≤ 32 ∧ (0 : Station).val < 2 ∧ (0 : Station).val = ((1 : Station).val + 1) % 2 ∧
      rank 0 2 (some 31) = rank 0 2 (some 1) := by decide

theorem witness_RotationSlots :
    joining.accessTimer = none ∧ fx.accessTimer = some 5 ∧ muted.accessTimer = some 5 ∧ muted.station = .muted ∧
      fx.transmitter = .idle ∧ { fx with buffer := (sending .presence fx).buffer }.transmitter = .idle ∧
      (after .listenPeriodEnd joiningQuiet).accessTimer = some 0 ∧ (after .listenPeriodEnd joiningQuiet).buffer = none ∧
      leaving.buffer = none ∧ leaving.station = .leaving ∧
      12 + 8 * (rank 1 4 (some 1) + 1) = 12 + 4 * 8 := by decide +kernel

/-- A state for each choice of Table 8.3, an answer for each row of R97 and R100, both extents, and both ends of the cycle. -/
theorem witness_ActiveSlotChoice :
    fx.station = .active ∧ fx.transmitter = .idle ∧ fx.buffer = none ∧ fx.accessTimer = some 5 ∧ fx.responseMark = false ∧
      20 = 12 + 8 * (rank fx.record.own fx.record.ring fx.view + 1) ∧
      12 + fx.record.ring * 8 = 12 + 8 * (rank fx.record.own fx.record.ring (some 1) + 1) ∧
      { fx with responseMark := true }.responseMark = true ∧ fx.replyQueue = .ack 2 0 7 0 .done :: [] ∧
      fx.sendOrder = 3 :: [] ∧ fx.table[3] = some (entry .read 2 6 0 16 1 0 (.queued false)) ∧
      fx.publishQueue = (0, .span) :: [] ∧
      fx.variant 0 = (ownPage .onWrite .accept true 5 (some { low := 2, high := 3 })).variant ∧
      { fx with publishQueue := [(63, .full)] }.publishQueue = (63, .full) :: [] ∧
      fx.variant 63 = (ownPage .onWrite .accept false 255 none).variant ∧
      quietLine.replyQueue = [] ∧ quietLine.sendOrder = [] ∧ quietLine.publishQueue = [] ∧
      { quietLine with presenceMark := true }.presenceMark = true ∧ quietLine.presenceMark = false := by decide +kernel

theorem witness_AnswerIs :
    AnswerIs fx (.ack 2 0 7 0 .done) 2 (.ack 0 7 0 0) ∧
      AnswerIs fx (.reply 2 1 7 0 64 0 1) 2 (.reply 1 7 0 4 64 0 0 []) ∧
      AnswerIs fx (.reply 2 1 7 0 7 0 1) 2 (.reply 1 7 0 2 7 0 0 []) ∧
      AnswerIs fx (.reply 2 1 7 0 4 0 1) 2 (.reply 1 7 0 1 4 0 0 []) ∧
      AnswerIs fx (.reply 2 1 7 0 0 63 2) 2 (.reply 1 7 0 4 0 0 0 []) ∧
      AnswerIs fx (.reply 2 1 7 0 0 2 1) 2 (.reply 1 7 0 0 0 5 1 [0x00C8#16]) :=
  ⟨.inl ⟨0, 7, 0, .done, rfl, rfl⟩, .inr ⟨1, 7, 0, 64, 0, 1, rfl, .inl ⟨by decide, rfl⟩⟩,
    .inr ⟨1, 7, 0, 7, 0, 1, rfl, .inr ⟨7, rfl, .inl ⟨by decide +kernel, rfl⟩⟩⟩,
    .inr ⟨1, 7, 0, 4, 0, 1, rfl, .inr ⟨4, rfl, .inr (.inl ⟨by decide +kernel, by decide +kernel, rfl⟩)⟩⟩,
    .inr ⟨1, 7, 0, 0, 63, 2, rfl, .inr ⟨0, rfl, .inr (.inr ⟨by decide +kernel, _, _, rfl, .inl ⟨by decide, rfl⟩⟩)⟩⟩,
    .inr ⟨1, 7, 0, 0, 2, 1, rfl, .inr ⟨0, rfl, .inr (.inr ⟨by decide +kernel, _, _, rfl, .inr ⟨by decide, by decide,
      by decide +kernel⟩⟩)⟩⟩⟩

theorem witness_ReplyWindowAnswers :
    let s := { fx with windowOpen := true, accessTimer := some 11 }
    s.windowOpen = true ∧ s.station = .active ∧ s.buffer = none ∧ s.transmitter = .idle ∧
      s.replyQueue = .ack 2 0 7 0 .done :: [] ∧ muted.station ≠ .active ∧ 63 < (64 : Byte).toNat ∧ s.disputed 7 = true ∧
      (s.variant 4).isOwn = false ∧ (s.variant 0).isOwn = true ∧ (63 : Byte).toNat + (1 : Byte).toNat ≤ 64 ∧
      64 < (63 : Byte).toNat + (2 : Byte).toNat := by decide +kernel

theorem witness_MismatchAndAbort :
    (sending .presence fx).transmitter = .sending 0 ∧ (jamming .presence 6 fx).transmitter = .jamming 16 ∧
      (jamming .presence 6 fx).abortCount < 7 ∧ fx.transmitter = .idle := by decide +kernel

theorem witness_Completions :
    (sending .joinAnnounce joiningQuiet).transmitter = .sending 0 ∧ (sending .joinAnnounce joiningQuiet).station = .joining ∧
      ((sending .joinAnnounce joiningQuiet).buffer.map TxFrame.origin) = some .joinAnnounce ∧
      (sending (.request 3) fx).station = .active ∧ ((sending (.request 3) fx).buffer.map TxFrame.origin) = some (.request 3) ∧
      (fx.table[3].map Request.phase) = some (.queued false) ∧ (sending .answer leaving).station = .leaving ∧
      (let s := after .leave (after .rotationSlot { fx with replyQueue := [] })
       s.station = .leaving ∧ s.transmitter = .sending 0 ∧ (s.buffer.map TxFrame.origin) = some (.request 3) ∧
        (s.buffer.map TxFrame.discard) = some true ∧ (s.table[3].map Request.phase) = some (.failed .cancelled)) := by
  decide +kernel

theorem witness_TransactionRoundTrip :
    (Instr.write 9 0 1 [0x1#16]).wf = true ∧
      encodeTransaction (.write 9 0 1 [0x1#16]) = some ⟨false, [0x11, 0x09, 0x00, 0x01, 0x00, 0x01]⟩ ∧
      (∀ u, Instr.write 9 0 1 [0x1#16] ≠ .transactionDiscarded u) ∧ Instr.join.wf = true ∧
      encodeCommand .join = some [0x08] ∧ exec .join fx = .next (after .join fx) :=
  ⟨by decide, by decide, nofun, by decide, by decide, rfl⟩

theorem witness_FrameRoundTrip :
    (Frame.mk 2 1 (.fetch 9 0 16 3 4 0)).wf = true ∧ (Frame.mk 2 1 (.fetch 9 0 16 3 4 0)).sender = byteOf (2 : Station).val ∧
      (2 : Station) ≠ 1 := by decide +kernel

/-- The shortest body and the longest that header byte 3 can give; a CRC that agrees and one that differs; the own number and
another. -/
theorem witness_FrameRoundTrip_raw :
    ([] : List Byte).length ≤ 255 ∧ (List.replicate 255 (0 : Byte)).length ≤ 255 ∧
      (0xCF#8 ++ 0x54#8 = crcOf [0x02, 0x03, 0xFF, 0x00]) ∧ (0#8 ++ 0#8 ≠ crcOf [0x02, 0x03, 0xFF, 0x00]) ∧
      (0x03 : Byte) = byteOf (3 : Station).val ∧ (0x03 : Byte) ≠ byteOf (1 : Station).val ∧
      5 < ([0x02, 0x03, 0xFF, 0x00, 0xCF, 0x54] : List Byte).length := by decide +kernel

/-- A frame for each test of R119, and one that no test finds malformed. -/
theorem witness_FoundMalformed :
    FoundMalformed 2 3 0xFF (List.replicate 135 0) ∧ FoundMalformed 0 3 0xFF [] ∧ FoundMalformed 0x12 3 0xFF [] ∧
      FoundMalformed 2 32 0xFF [] ∧ FoundMalformed 5 3 0xFF [0, 0, 1, 0, 0] ∧ FoundMalformed 5 3 1 [0, 0, 1, 0] ∧
      FoundMalformed 4 3 0xFF [64, 0, 0, 1, 0, 0] ∧ ¬ FoundMalformed 2 3 0xFF [] := by
  simp [FoundMalformed, LengthFits, BitVec.getLsbD]; decide

theorem witness_FrameBits :
    (Frame.mk 3 0xFF .presence).wire[0]? = some 0x02 ∧ (Frame.mk 3 0xFF .presence).bytes[31 / 8]? = some 0x00 := by
  decide +kernel

theorem witness_DescriptorsFrozen :
    exec (.setPage 9 .none) fx = .next (after (.setPage 9 .none) fx) ∧ (0 : PageNo).val ≠ (9 : Byte).toNat ∧
      fx.station ≠ .setup ∧ (after .listenPeriodEnd joiningQuiet).buffer = none ∧
      ((after .rotationSlot (after .listenPeriodEnd joiningQuiet)).buffer.map fun f => f.frame.body) =
        some (.announce true 4 10 0) := ⟨rfl, by decide +kernel⟩

/-- Each path by which a word changes. -/
theorem witness_MemoryPaths :
    MemorySound fx ∧ (after (.write 0 5 1 [0x1#16]) fx).word 0 5 ≠ fx.word 0 5 ∧
      (after (.writeFrame 2 0 63 1 7 0 [0x00C9#16]) fx).word 0 63 ≠ fx.word 0 63 ∧
      (after (.updateFrame 2 4 8 63 [0x7#16]) fx).word 4 63 ≠ fx.word 4 63 ∧
      (after (.replyFrame 3 15 9 0 0 41 32 64 (List.replicate 64 5)) fx).word 41 0 ≠ fx.word 41 0 ∧
      (after .hardwareReset fx).word 0 2 ≠ fx.word 0 2 := by decide +kernel

theorem witness_StationTransitions :
    exec .leave fx = .next (after .leave fx) ∧ (after .leave fx).station ≠ fx.station := ⟨rfl, by decide +kernel⟩

theorem witness_TransmissionStarts :
    exec .rotationSlot fx = .next (after .rotationSlot fx) ∧ fx.transmitter = .idle ∧
      (after .rotationSlot fx).transmitter ≠ .idle := ⟨rfl, by decide +kernel⟩

/-- The fixture with a command waiting. -/
def queued : State := { fx with pending := [.write 0 5 1 [0x1#16]] }

theorem witness_step_answers : ∃ t, step queued = .next t := ⟨_, rfl⟩

theorem witness_CollectionsKept : MemorySound queued ∧ NotifyQueueSound queued ∧ ServiceSound queued := by decide +kernel
theorem witness_PublicationKept : SpansSound queued ∧ PublishQueueSound queued ∧ DisputesSound queued := by decide +kernel
theorem witness_RequestsAndMirrorsKept :
    queued.record.inRange = true ∧ MirrorsSound queued ∧ RequestsSound queued ∧ RefreshesSound queued := by decide +kernel
theorem witness_TimersAndSetupKept :
    ChannelsSound queued ∧ PresenceSound queued ∧ SetupQuiet queued ∧ SetupQuiet State.reset := by decide +kernel
theorem witness_PeersKept : queued.record.inRange = true ∧ PeersSound queued := by decide +kernel
theorem witness_TransmitKept : TransmitSound queued ∧ TransmitSound (sending .presence fx) := by decide +kernel

end Sys2Proof.Tests
end

section
/-! SUPPORT. R7: descriptors change by hardware reset and by SET_PAGE in SETUP alone, and every ANNOUNCE carries the owned set
as it stands. `DescriptorsKept` joins the two claims in one relation that composes; each operation of the model is shown to
keep it. -/

namespace Sys2Proof.Machine

/-! ### Descriptors -/

/-- `restarted` gives a page the run-state its variant starts with, so it is the same for two pages exactly if their
descriptors are. -/
theorem sameDescriptor_iff_restarted (v w : PageVariant) : v.sameDescriptor w ↔ v.restarted = w.restarted := by
  cases v <;> cases w <;> simp [PageVariant.sameDescriptor, PageVariant.restarted]

@[simp] theorem PageVariant.restarted_restarted (v : PageVariant) : v.restarted.restarted = v.restarted := by
  cases v <;> rfl

@[simp] theorem PageVariant.emptied_restarted (v : PageVariant) : v.emptied.restarted = v.restarted := by
  cases v <;> rfl

@[simp] theorem PageVariant.withMark_restarted (m : RefreshMark) (v : PageVariant) :
    (v.withMark m).restarted = v.restarted := by
  cases v <;> rfl

@[simp] theorem PageVariant.tick_restarted (v : PageVariant) : v.tick.restarted = v.restarted := by
  cases v <;> rfl

@[simp] theorem PageVariant.restarted_isOwn (v : PageVariant) : v.restarted.isOwn = v.isOwn := by
  cases v <;> rfl

/-! ### The owned set -/

/-- The bits of a page set built up page by page: those it had, and those of the chosen pages. -/
theorem foldl_twoPow_getLsbD (sel : PageNo → Bool) (l : List PageNo) (set : PageSet) (p : PageNo) :
    (l.foldl (fun set q => if sel q then set ||| BitVec.twoPow 64 q.val else set) set).getLsbD p.val =
      (set.getLsbD p.val || (decide (p ∈ l) && sel p)) := by
  induction l generalizing set with
  | nil => simp
  | cons q l ih =>
    rw [List.foldl_cons, ih]
    by_cases hq : p = q
    · subst hq
      cases h : sel p <;> simp [p.isLt]
    · have hv : q.val ≠ p.val := fun e => hq (Fin.ext e.symm)
      cases h : sel q <;> simp [hq, show ¬ p.val = q.val from hv.symm]

theorem ownedSet_getLsbD (s : State) (p : PageNo) : s.ownedSet.getLsbD p.val = (s.variant p).isOwn := by
  rw [State.ownedSet, foldl_twoPow_getLsbD fun q => (s.variant q).isOwn]; simp

/-! ### The relation -/

/-- The transmit buffer holds an ANNOUNCE that carries the owned set `owned`. -/
def Announces (buffer : Option TxFrame) (owned : PageSet) : Prop :=
  ∃ f j ring silence, buffer = some f ∧ f.frame.body = .announce j ring silence owned

/-- From `s` to `t` every page keeps its descriptor, and an ANNOUNCE in the buffer of `t` carries the owned set of one already
in the buffer, or that of `s`. It looks at pages and buffer alone, so it holds by `refl` of a change of other fields. -/
def DescriptorsKept (s t : State) : Prop :=
  (∀ p, (t.variant p).restarted = (s.variant p).restarted) ∧
    ∀ owned, Announces t.buffer owned → Announces s.buffer owned ∨ owned = s.ownedSet

/-- A change of state after which `DescriptorsKept` holds, wherever it starts. -/
def KeepsDescriptors (f : State → State) : Prop := ∀ s, DescriptorsKept s (f s)

namespace DescriptorsKept

variable {s t u : State}

/-- SELF pages are told from others by their descriptors, so the owned set stands with them. -/
theorem ownedSet_eq (h : DescriptorsKept s t) : t.ownedSet = s.ownedSet := by
  have hown (p : PageNo) : (t.variant p).isOwn = (s.variant p).isOwn := by
    rw [← PageVariant.restarted_isOwn, h.1 p, PageVariant.restarted_isOwn]
  simp only [State.ownedSet, hown]

theorem refl (s : State) : DescriptorsKept s s := ⟨fun _ => rfl, fun _ => .inl⟩

theorem trans (h₁ : DescriptorsKept s t) (h₂ : DescriptorsKept t u) : DescriptorsKept s u := by
  refine ⟨fun p => (h₂.1 p).trans (h₁.1 p), fun owned ho => ?_⟩
  rcases h₂.2 owned ho with ht | rfl
  · exact h₁.2 owned ht
  · exact .inr h₁.ownedSet_eq

/-- A change that leaves the buffer's frame, if it leaves one, keeps what the buffer announces. -/
theorem of_frame (hp : ∀ p, (t.variant p).restarted = (s.variant p).restarted)
    (hb : ∀ f, t.buffer = some f → ∃ g, s.buffer = some g ∧ f.frame = g.frame) : DescriptorsKept s t := by
  refine ⟨hp, fun owned ⟨f, j, ring, silence, hf, hbody⟩ => ?_⟩
  obtain ⟨g, hg, hfg⟩ := hb f hf
  exact .inl ⟨g, j, ring, silence, hg, hfg ▸ hbody⟩

theorem of_buffer_eq (hp : ∀ p, (t.variant p).restarted = (s.variant p).restarted) (hb : t.buffer = s.buffer) :
    DescriptorsKept s t :=
  .of_frame hp fun f hf => ⟨f, hb ▸ hf, rfl⟩

theorem of_buffer_none (hp : ∀ p, (t.variant p).restarted = (s.variant p).restarted) (hb : t.buffer = none) :
    DescriptorsKept s t :=
  .of_frame hp (by simp [hb])

/-- The relation looks at pages and buffer alone, so a change of other fields keeps it. -/
theorem of_pages_buffer (h : DescriptorsKept s t) (hp : u.pages = t.pages) (hb : u.buffer = t.buffer) :
    DescriptorsKept s u :=
  h.trans (.of_buffer_eq (by simp [State.variant, hp]) hb)

end DescriptorsKept

theorem setVariant_descriptorsKept {s : State} {p : PageNo} {v w : PageVariant} (hv : s.variant p = v)
    (hw : w.restarted = v.restarted) : DescriptorsKept s (setVariant p w s) := by
  refine .of_buffer_eq (fun q => ?_) rfl
  rw [setVariant_variant]; split
  · next hq => rw [hw, hq, hv]
  · rfl

theorem mapVariants_keepsDescriptors {f : PageNo → PageVariant → PageVariant}
    (hf : ∀ p v, (f p v).restarted = v.restarted) : KeepsDescriptors (mapVariants f) :=
  fun s => .of_buffer_eq (by simp [hf]) (by simp)

theorem foldl_keepsDescriptors {α : Type} {f : State → α → State} (hf : ∀ a, KeepsDescriptors (f · a)) (l : List α) :
    KeepsDescriptors (l.foldl f) := by
  induction l with
  | nil => exact .refl
  | cons a l ih => exact fun s => (hf a s).trans (ih _)

/-! ### Shared operations -/

theorem notifyIf_keepsDescriptors (w : Bool) (p : PageNo) : KeepsDescriptors (notifyIf w p) := fun s => by
  rw [notifyIf_only]; exact .refl s

theorem enqueueAll_keepsDescriptors (sel : PageNo → Bool) (x : Extent) : KeepsDescriptors (enqueueAll sel x) := fun s => by
  rw [enqueueAll_only]; exact .refl s

theorem storeWrite_keepsDescriptors (p : PageNo) (o : Nat) (ws : List Word) :
    KeepsDescriptors (storeWrite p o ws) := fun s => by
  unfold storeWrite; split
  · next d r hv =>
    rw [policyAction_only]
    refine setVariant_descriptorsKept (s := putWords p o ws s) hv ?_
    split <;> rfl
  · exact .refl s

theorem discardFrame_keepsDescriptors (sel : Origin → Bool) : KeepsDescriptors (discardFrame sel) := fun s => by
  unfold discardFrame; split
  · next f hb =>
    split
    · split
      · exact .of_frame (fun _ => rfl) (by simp [hb])
      · exact .of_buffer_none (fun _ => rfl) rfl
    · exact .refl s
  · exact .refl s

/-- What ending requests does to the buffer is a discard (R88). -/
theorem endRequests_buffer (sel : Request → Bool) (why : LocalReason) (s : State) :
    ∃ drop, (endRequests sel why s).buffer = (discardFrame drop s).buffer := by
  unfold endRequests; dsimp only; split
  · exact ⟨_, setFlag_buffer _ _⟩
  · exact ⟨_, rfl⟩

theorem endRequests_keepsDescriptors (sel : Request → Bool) (why : LocalReason) :
    KeepsDescriptors (endRequests sel why) := fun s => by
  obtain ⟨drop, hdrop⟩ := endRequests_buffer sel why s
  exact (discardFrame_keepsDescriptors drop s).of_pages_buffer (by rw [endRequests_only, discardFrame_only]) hdrop

theorem dropPending_keepsDescriptors : KeepsDescriptors dropPending := fun s => by
  unfold dropPending
  exact mapVariants_keepsDescriptors (fun _ v => by split <;> simp) s

theorem claimPage_keepsDescriptors (p : PageNo) : KeepsDescriptors (claimPage p) := fun s => by
  unfold claimPage; split
  · next d r hv =>
    split
    · split
      · next t _ => exact setVariant_descriptorsKept (s := allocate t .refresh d.owner p 0 Config.pageWords s) hv rfl
      · exact .refl s
    · exact .refl s
  · exact .refl s

theorem claimRefreshes_keepsDescriptors : KeepsDescriptors claimRefreshes := fun s => by
  unfold claimRefreshes; split
  · exact foldl_keepsDescriptors claimPage_keepsDescriptors _ s
  · exact .refl s

theorem refreshFailed_keepsDescriptors (p : PageNo) : KeepsDescriptors (refreshFailed p) := fun s => by
  unfold refreshFailed; split
  · next hv => exact setVariant_descriptorsKept hv rfl
  · exact .refl s

/-! ### Moves between station states -/

theorem enterSetup_keepsDescriptors : KeepsDescriptors enterSetup := fun s =>
  .of_buffer_none (fun p => by simp [State.variant, enterSetup]) rfl

theorem enterJoining_keepsDescriptors (cause : RecoveryCause) : KeepsDescriptors (enterJoining cause) := fun s =>
  .of_buffer_none (fun p => by simp [State.variant, enterJoining, mapVariants]) rfl

theorem enterMuted_keepsDescriptors (why : MutedReason) : KeepsDescriptors (enterMuted why) := fun s =>
  have hended := (dropPending_keepsDescriptors s).trans (endRequests_keepsDescriptors (fun _ => true) .muted _)
  (hended.trans (discardFrame_keepsDescriptors (fun _ => true) _)).of_pages_buffer
    (by simp [enterMuted]) (by simp [enterMuted])

theorem enterLeaving_keepsDescriptors : KeepsDescriptors enterLeaving := fun s =>
  have hended := (dropPending_keepsDescriptors s).trans (endRequests_keepsDescriptors (fun _ => true) .cancelled _)
  hended.of_pages_buffer (by simp [enterLeaving]) (by simp [enterLeaving])

theorem enterActive_keepsDescriptors : KeepsDescriptors enterActive := fun s =>
  (enqueueAll_keepsDescriptors _ _
    (loadPeriodChannels (loadPresenceTimer (setFlag .joined { s with station := .active })))).trans
    (claimRefreshes_keepsDescriptors _)

/-! ### The peer table -/

theorem renewPresence_keepsDescriptors (x : Station) : KeepsDescriptors (renewPresence x) := fun s => by
  rw [renewPresence_only]; exact .refl s

theorem ownerLost_keepsDescriptors (x : Station) : KeepsDescriptors (ownerLost x) := fun s =>
  (mapVariants_keepsDescriptors (fun _ v => by
    cases v with
    | mirror d r => dsimp only; split <;> rfl
    | _ => rfl) s).trans (endRequests_keepsDescriptors _ _ _)

theorem ownerRejoined_keepsDescriptors (x : Station) : KeepsDescriptors (ownerRejoined x) := fun s =>
  (mapVariants_keepsDescriptors (fun _ v => by
    cases v with
    | mirror d r => dsimp only; split <;> rfl
    | _ => rfl) s).trans (endRequests_keepsDescriptors _ _ _)

/-- The pages that `sel` chooses flagged and out of the publish queue: what `becomeDisputed` does to the page map. -/
def flagDisputed (sel : PageNo → Bool) (s : State) : State :=
  { s with
    pages := mapTable (fun p pg =>
      if sel p then { variant := pg.variant.withMark .none, disputed := true } else pg) s.pages
    publishQueue := s.publishQueue.filter fun e => !sel e.1 }

theorem becomeDisputed_eq (sel : PageNo → Bool) (s : State) :
    becomeDisputed sel s =
      endRequests (fun r => r.isRefresh && sel r.page) .ownerLost
        (discardFrame (fun o => match o with | .update p => sel p | _ => false) (flagDisputed sel s)) := rfl

theorem flagDisputed_keepsDescriptors (sel : PageNo → Bool) : KeepsDescriptors (flagDisputed sel) := fun s => by
  refine .of_buffer_eq (fun p => ?_) (by simp only [flagDisputed])
  simp only [flagDisputed, State.variant, Fin.getElem_fin, mapTable_getElem]
  split <;> simp

theorem becomeDisputed_keepsDescriptors (sel : PageNo → Bool) : KeepsDescriptors (becomeDisputed sel) := fun s => by
  rw [becomeDisputed_eq]
  exact ((flagDisputed_keepsDescriptors sel s).trans (discardFrame_keepsDescriptors _ _)).trans
    (endRequests_keepsDescriptors _ _ _)

theorem disputeCheck_keepsDescriptors (x : Station) (owned : PageSet) :
    KeepsDescriptors (disputeCheck x owned) := fun s => by
  unfold disputeCheck; dsimp only; split
  · exact (becomeDisputed_keepsDescriptors _ s).of_pages_buffer (setFlag_pages _ _) (setFlag_buffer _ _)
  · exact .refl s

/-! ### The tick and the expiries -/

theorem tickEffect_keepsDescriptors : KeepsDescriptors tickEffect := fun s =>
  (mapVariants_keepsDescriptors (f := fun _ v => v.tick) (fun _ v => v.tick_restarted) s).of_pages_buffer
    (by simp [tickEffect]) (by simp [tickEffect])

theorem gatherExpiryEffect_keepsDescriptors (c : ChannelNo) : KeepsDescriptors (gatherExpiryEffect c) := fun s => by
  unfold gatherExpiryEffect; split
  · rw [enqueueAll_only]; exact .refl s
  · exact .refl s

theorem periodExpiryEffect_keepsDescriptors (c : ChannelNo) : KeepsDescriptors (periodExpiryEffect c) := fun s => by
  unfold periodExpiryEffect; split
  · rw [enqueueAll_only]; exact .refl s
  · exact .refl s

theorem replyTimeout_keepsDescriptors (t : Tag) (r : Request) : KeepsDescriptors (replyTimeout t r) := fun s => by
  unfold replyTimeout; split
  · exact .refl s
  · split
    · exact refreshFailed_keepsDescriptors r.page s
    · exact .refl s

theorem replyTimerExpiryEffect_keepsDescriptors (t : Tag) : KeepsDescriptors (replyTimerExpiryEffect t) := fun s => by
  unfold replyTimerExpiryEffect; split
  · split
    · split
      · exact replyTimeout_keepsDescriptors _ _ s
      · exact .refl s
    · exact .refl s
  · exact .refl s

theorem ageExpiryEffect_keepsDescriptors (p : PageNo) : KeepsDescriptors (ageExpiryEffect p) := fun s => by
  unfold ageExpiryEffect; split
  · next hv =>
    split
    · exact setVariant_descriptorsKept hv rfl
    · exact .refl s
  · exact .refl s

theorem silenceExpiryEffect_keepsDescriptors (x : Station) : KeepsDescriptors (silenceExpiryEffect x) := fun s => by
  unfold silenceExpiryEffect; split
  · split
    · exact ownerLost_keepsDescriptors x (setFlag .peerChange (setPeer x _ s))
    · exact .refl s
  · exact .refl s

theorem presenceExpiryEffect_keepsDescriptors : KeepsDescriptors presenceExpiryEffect := fun s => by
  unfold presenceExpiryEffect; split <;> exact .refl s

/-! ### Frames from the line -/

theorem duplicateFound_keepsDescriptors : KeepsDescriptors duplicateFound := fun s => by
  unfold duplicateFound; split
  · exact .refl s
  · exact .refl s
  · exact enterMuted_keepsDescriptors _ s

/-- What the access controller does at the end of a good frame touches neither pages nor buffer; the rest is the unit's. -/
theorem frameFrom_keepsDescriptors {f : State → State} (hf : KeepsDescriptors f) (x : Station) (window : Bool) :
    KeepsDescriptors (frameFrom x window f) := fun s => by
  rcases frameFrom_cases x window f s with ⟨_, _, h⟩ | ⟨_, _, h⟩ | ⟨_, _, h⟩ | ⟨_, _, h⟩ <;> rw [h]
  · exact .refl s
  · exact duplicateFound_keepsDescriptors (goodEnd _ _ s)
  · exact .refl s
  · exact hf (goodEnd _ _ s)

theorem malformedEffect_keepsDescriptors (sender : Byte) : KeepsDescriptors (malformedEffect sender) := fun s => by
  unfold malformedEffect; split
  · next x _ =>
    exact frameFrom_keepsDescriptors (fun s => renewPresence_keepsDescriptors x (advance .malformed s)) x false s
  · split <;> exact .refl s

theorem applyToMirror_descriptorsKept {s : State} {p : PageNo} {d : MirrorDesc} {r : MirrorRun}
    (hv : s.variant p = .mirror d r) (first : Nat) (ws : List Word) (v : Byte) (st : MirrorState) (mark : RefreshMark) :
    DescriptorsKept s (applyToMirror p d first ws v st mark s) :=
  (setVariant_descriptorsKept (s := putWords p first ws s) (w := .mirror d ⟨st, some v, ageLoad d.ageLimit, mark⟩) hv
    rfl).trans (notifyIf_keepsDescriptors _ _ _)

theorem takeUpdate_keepsDescriptors (x : Station) (p : PageNo) (v first : Byte) (ws : List Word) :
    KeepsDescriptors (takeUpdate x p v first ws) := fun s => by
  unfold takeUpdate
  split; · exact .refl s
  split; · exact .refl s
  split; · exact .refl s
  split
  · exact .refl s
  · exact .refl s
  · next d r hv =>
    split
    · unfold updateMirror; split
      · exact applyToMirror_descriptorsKept hv _ _ _ _ _
      · exact .refl s
    · exact .refl s
  · split <;> exact .refl s

theorem updateFrameEffect_keepsDescriptors (x : Station) (p : PageNo) (v first : Byte) (ws : List Word) :
    KeepsDescriptors (updateFrameEffect x p v first ws) := fun s => by
  unfold updateFrameEffect; split
  · exact malformedEffect_keepsDescriptors _ s
  · exact frameFrom_keepsDescriptors
      (fun s => (renewPresence_keepsDescriptors x s).trans (takeUpdate_keepsDescriptors x p v first ws _)) x false s

theorem serve_keepsDescriptors {f : State → State} (hf : KeepsDescriptors f) : KeepsDescriptors (serve f) := fun s => by
  unfold serve; split
  · split
    · exact .refl s
    · exact hf s
  · exact .refl s

theorem fetchFrameEffect_keepsDescriptors (x : Station) (page offset count : Byte) (t : Tag) (i : Issue) (a : Byte) :
    KeepsDescriptors (fetchFrameEffect x page offset count t i a) :=
  frameFrom_keepsDescriptors (fun s => (renewPresence_keepsDescriptors x s).trans
    (serve_keepsDescriptors (f := oweAnswer _) .refl _)) x true

theorem applyRemoteWrite_keepsDescriptors (page offset : Byte) (ws : List Word) :
    KeepsDescriptors (applyRemoteWrite page offset ws) := fun s => by
  unfold applyRemoteWrite; split
  · exact (storeWrite_keepsDescriptors _ _ _ s).trans (notifyIf_keepsDescriptors _ _ _)
  · exact .refl s

theorem serveWrite_keepsDescriptors (x : Station) (page offset : Byte) (t : Tag) (i : Issue) (a : Byte) (ws : List Word) :
    KeepsDescriptors (serveWrite x page offset t i a ws) := fun s => by
  unfold serveWrite; split
  · exact .refl s
  · dsimp only; split
    · exact applyRemoteWrite_keepsDescriptors page offset ws s
    · exact .refl s

theorem writeFrameEffect_keepsDescriptors (x : Station) (page offset : Byte) (t : Tag) (i : Issue) (a : Byte)
    (ws : List Word) : KeepsDescriptors (writeFrameEffect x page offset t i a ws) := fun s => by
  unfold writeFrameEffect; split
  · exact malformedEffect_keepsDescriptors _ s
  · exact frameFrom_keepsDescriptors (fun s => (renewPresence_keepsDescriptors x s).trans
      (serve_keepsDescriptors (serveWrite_keepsDescriptors x page offset t i a ws) _)) x true s

theorem readAnswered_keepsDescriptors (t : Tag) (r : Request) (st : RemoteStatus) (v : Byte) (ws : List Word) :
    KeepsDescriptors (readAnswered t r st v ws) := fun s => by
  unfold readAnswered; split
  · split <;> exact .refl s
  · exact .refl s

theorem refreshAnswered_descriptorsKept {s : State} {p : PageNo} {d : MirrorDesc} {r : MirrorRun}
    (hv : s.variant p = .mirror d r) (st : RemoteStatus) (v : Byte) (ws : List Word) :
    DescriptorsKept s (refreshAnswered p d r st v ws s) := by
  unfold refreshAnswered
  split; · exact refreshFailed_keepsDescriptors p s
  split; · exact refreshFailed_keepsDescriptors p (advance .malformed s)
  split
  · exact refreshFailed_keepsDescriptors p s
  · exact refreshFailed_keepsDescriptors p s
  · split
    · exact applyToMirror_descriptorsKept hv _ _ _ _ _
    · exact setVariant_descriptorsKept hv rfl

theorem takeReply_keepsDescriptors (x : Station) (t : Tag) (i : Issue) (a : Byte) (st : RemoteStatus) (page v : Byte)
    (ws : List Word) : KeepsDescriptors (takeReply x t i a st page v ws) := fun s => by
  unfold takeReply; split
  · split
    · split
      · exact readAnswered_keepsDescriptors _ _ _ _ _ s
      · exact .refl s
      · split
        · next hv =>
          split
          · exact refreshAnswered_descriptorsKept hv st v ws
          · exact .refl s
        · exact .refl s
    · exact .refl s
  · exact .refl s

theorem withStatus_keepsDescriptors {f : RemoteStatus → State → State} (hf : ∀ st, KeepsDescriptors (f st))
    (status : Byte) : KeepsDescriptors (withStatus status f) := fun s => by
  unfold withStatus; split
  · exact hf _ s
  · exact .refl s

theorem replyFrameEffect_keepsDescriptors (x : Station) (t : Tag) (i : Issue) (a status page v count : Byte)
    (ws : List Word) : KeepsDescriptors (replyFrameEffect x t i a status page v count ws) := fun s => by
  unfold replyFrameEffect; split
  · exact frameFrom_keepsDescriptors (fun s => (renewPresence_keepsDescriptors x s).trans
      (withStatus_keepsDescriptors (fun st => takeReply_keepsDescriptors x t i a st page v ws) status _)) x false s
  · exact malformedEffect_keepsDescriptors _ s

theorem takeAck_keepsDescriptors (x : Station) (t : Tag) (i : Issue) (a : Byte) (st : RemoteStatus) :
    KeepsDescriptors (takeAck x t i a st) := fun s => by
  unfold takeAck; split
  · split
    · split <;> exact .refl s
    · exact .refl s
  · exact .refl s

theorem ackFrameEffect_keepsDescriptors (x : Station) (t : Tag) (i : Issue) (a status : Byte) :
    KeepsDescriptors (ackFrameEffect x t i a status) :=
  frameFrom_keepsDescriptors (fun s => (renewPresence_keepsDescriptors x s).trans
    (withStatus_keepsDescriptors (takeAck_keepsDescriptors x t i a) status _)) x false

theorem joinFlagActions_keepsDescriptors (x : Station) : KeepsDescriptors (joinFlagActions x) := fun s => by
  unfold joinFlagActions; dsimp only; split
  · exact (ownerRejoined_keepsDescriptors x s).trans
      (enqueueAll_keepsDescriptors _ _ { ownerRejoined x s with responseMark := true })
  · exact ownerRejoined_keepsDescriptors x s

theorem takeAnnounce_keepsDescriptors (x : Station) (j : Bool) (ring silence : Byte) (owned : PageSet) :
    KeepsDescriptors (takeAnnounce x j ring silence owned) := fun s => by
  have hcheck : DescriptorsKept s (disputeCheck x owned (recordOwned x owned silence (renewPresence x s))) :=
    (renewPresence_keepsDescriptors x s).trans
      (disputeCheck_keepsDescriptors x owned (recordOwned x owned silence (renewPresence x s)))
  unfold takeAnnounce; split
  · split
    · exact enterSetup_keepsDescriptors s
    · exact renewPresence_keepsDescriptors x s
  · dsimp only; split
    · exact hcheck.trans (joinFlagActions_keepsDescriptors x _)
    · exact hcheck

theorem takeLeave_keepsDescriptors (x : Station) : KeepsDescriptors (takeLeave x) := fun s => by
  unfold takeLeave; split
  · exact .refl s
  · exact ownerLost_keepsDescriptors x (setFlag .peerChange (setPeer x PeerRecord.start s))

theorem activityStartEffect_keepsDescriptors : KeepsDescriptors activityStartEffect := fun s => by
  unfold activityStartEffect; split
  · split <;> exact .refl s
  · exact .refl s

theorem foundBrokenEffect_keepsDescriptors (finding : Finding) : KeepsDescriptors (foundBrokenEffect finding) := fun s => by
  unfold foundBrokenEffect; split
  · split <;> exact .refl s
  · exact .refl s

theorem brokenFrameEndEffect_keepsDescriptors : KeepsDescriptors brokenFrameEndEffect := fun s => by
  unfold brokenFrameEndEffect; split
  · split <;> exact .refl s
  · exact .refl s

theorem recoveringEndEffect_keepsDescriptors : KeepsDescriptors recoveringEndEffect := fun s => by
  unfold recoveringEndEffect; split <;> exact .refl s

/-! ### Frames built -/

/-- A frame that is no ANNOUNCE, or one with the owned set as it stands, may be built and started. -/
theorem startFrame_descriptorsKept {s : State} {f : Frame} (origin : Origin)
    (hf : ∀ j ring silence owned, f.body = .announce j ring silence owned → owned = s.ownedSet) :
    DescriptorsKept s (startFrame origin f s) := by
  refine ⟨fun _ => rfl, fun owned ⟨g, j, ring, silence, hg, hbody⟩ => .inr ?_⟩
  cases hg
  exact hf j ring silence owned hbody

theorem announce_ownedSet {s : State} {flag j : Bool} {ring silence : Byte} {owned : PageSet}
    (h : (s.announce flag).body = .announce j ring silence owned) : owned = s.ownedSet := by
  cases h; rfl

theorem answerFrame_ne_announce (s : State) (e : ReplyEntry) (j : Bool) (ring silence : Byte) (owned : PageSet) :
    (answerFrame s e).body ≠ .announce j ring silence owned := by
  cases e with
  | reply x t i a page offset count =>
    unfold answerFrame replyBody State.frame; dsimp only
    split
    · simp
    · split
      · simp
      · split
        · split <;> simp
        · simp
  | ack x t i a status => simp [answerFrame, State.frame]

theorem requestFrame_ne_announce (s : State) (t : Tag) (r : Request) (j : Bool) (ring silence : Byte) (owned : PageSet) :
    (requestFrame s t r).body ≠ .announce j ring silence owned := by
  unfold requestFrame; split <;> simp [State.frame]

theorem sendResponseAnnounce_descriptorsKept {s t : State} (h : sendResponseAnnounce s = some t) : DescriptorsKept s t := by
  unfold sendResponseAnnounce at h; split at h
  · cases h
    exact startFrame_descriptorsKept (s := { s with responseMark := false }) _ fun _ _ _ _ => announce_ownedSet
  · cases h

theorem sendAnswer_descriptorsKept {s t : State} (h : sendAnswer s = some t) : DescriptorsKept s t := by
  unfold sendAnswer at h; split at h
  · next e rest _ =>
    cases h
    exact startFrame_descriptorsKept (s := { s with replyQueue := rest }) _
      fun _ _ _ _ hb => absurd hb (answerFrame_ne_announce s e _ _ _ _)
  · cases h

theorem sendRequest_descriptorsKept {s t : State} (h : sendRequest s = some t) : DescriptorsKept s t := by
  unfold sendRequest at h; split at h
  · next u rest _ =>
    split at h
    · next r _ =>
      cases h
      exact startFrame_descriptorsKept
        (s := { setEntry u (some { r with phase := .queued true }) s with sendOrder := rest }) _
        fun _ _ _ _ hb => absurd hb (requestFrame_ne_announce s u r _ _ _ _)
    · cases h
  · cases h

theorem sendUpdate_descriptorsKept {s t : State} (h : sendUpdate s = some t) : DescriptorsKept s t := by
  unfold sendUpdate at h; split at h
  · next p x rest _ =>
    split at h
    · next d r hv =>
      cases h
      have hbuilt : DescriptorsKept s (setVariant p (.own d { version := r.version + 1, span := none }) s) :=
        setVariant_descriptorsKept hv rfl
      refine (hbuilt.of_pages_buffer (u := { setVariant p _ s with publishQueue := rest }) rfl rfl).trans ?_
      exact startFrame_descriptorsKept _ (by simp [State.frame])
    · cases h
  · cases h

theorem sendPresence_descriptorsKept {s t : State} (h : sendPresence s = some t) : DescriptorsKept s t := by
  unfold sendPresence at h; split at h
  · cases h
    exact startFrame_descriptorsKept _ (by simp [State.frame])
  · cases h

theorem buildFrame_descriptorsKept {s t : State} (h : buildFrame s = some t) : DescriptorsKept s t := by
  unfold buildFrame at h; split at h
  · cases h
    exact startFrame_descriptorsKept _ fun _ _ _ _ => announce_ownedSet
  · simp only [Option.or_eq_some_iff] at h
    rcases h with h | ⟨_, h | ⟨_, h | ⟨_, h | ⟨_, h⟩⟩⟩⟩
    · exact sendResponseAnnounce_descriptorsKept h
    · exact sendAnswer_descriptorsKept h
    · exact sendRequest_descriptorsKept h
    · exact sendUpdate_descriptorsKept h
    · exact sendPresence_descriptorsKept h
  · cases h
    exact startFrame_descriptorsKept _ (by simp [State.frame])
  · cases h
  · cases h

theorem selectFrame_keepsDescriptors : KeepsDescriptors selectFrame := fun s => by
  unfold selectFrame; split
  · next f hb => exact .of_frame (fun _ => rfl) (by simp [hb])
  · cases hf : buildFrame s with
    | none => exact .refl s
    | some t => exact buildFrame_descriptorsKept hf

/-! ### Turns on the line -/

theorem rotationSlotEffect_keepsDescriptors : KeepsDescriptors rotationSlotEffect := fun s => by
  unfold rotationSlotEffect; split
  · dsimp only; split
    · exact selectFrame_keepsDescriptors { s with accessTimer := _, windowOpen := false }
    · exact .refl s
  · exact .refl s

theorem replyWindowEffect_keepsDescriptors : KeepsDescriptors replyWindowEffect := fun s => by
  unfold replyWindowEffect; split
  · dsimp only
    generalize hw : ({ s with accessTimer := some Config.quietGap, windowOpen := false } : State) = w
    have hs : DescriptorsKept s w := hw ▸ .refl s
    split
    · cases hf : sendAnswer w with
      | none => exact hs
      | some t => exact hs.trans (sendAnswer_descriptorsKept hf)
    · exact hs
  · exact .refl s

theorem listenPeriodEndEffect_keepsDescriptors : KeepsDescriptors listenPeriodEndEffect := fun s => by
  unfold listenPeriodEndEffect; split <;> exact .refl s

theorem readbackMismatchEffect_keepsDescriptors : KeepsDescriptors readbackMismatchEffect := fun s => by
  unfold readbackMismatchEffect; split <;> exact .refl s

theorem eighthAbort_keepsDescriptors : KeepsDescriptors eighthAbort := fun s => by
  unfold eighthAbort; split
  · exact enterMuted_keepsDescriptors _ s
  · exact enterMuted_keepsDescriptors _ s
  · exact enterSetup_keepsDescriptors s
  · exact .refl s

theorem afterAbort_frame {f g : TxFrame} (h : afterAbort g = some f) : f.frame = g.frame := by
  unfold afterAbort at h; split at h <;> cases h; rfl

theorem abortEffect_keepsDescriptors : KeepsDescriptors abortEffect := fun s => by
  have hjam : DescriptorsKept s { foundBroken 0 s with transmitter := .idle, buffer := s.buffer.bind afterAbort } :=
    .of_frame (fun _ => rfl) fun f hf => by
      obtain ⟨g, hg, hfg⟩ := Option.bind_eq_some_iff.mp hf
      exact ⟨g, hg, afterAbort_frame hfg⟩
  unfold abortEffect; split
  · dsimp only; split
    · exact hjam
    · exact hjam.trans (eighthAbort_keepsDescriptors
        { foundBroken 0 s with transmitter := .idle, buffer := s.buffer.bind afterAbort, abortCount := 0 })
  · exact .refl s

theorem reloadPresence_keepsDescriptors : KeepsDescriptors reloadPresence := fun s => by
  unfold reloadPresence; split <;> exact .refl s

theorem requestSent_keepsDescriptors (t : Tag) : KeepsDescriptors (requestSent t) := fun s => by
  unfold requestSent; split
  · split <;> exact .refl s
  · exact .refl s

theorem completionTold_keepsDescriptors (o : Origin) : KeepsDescriptors (completionTold o) := fun s => by
  unfold completionTold; split
  · split
    · exact enterActive_keepsDescriptors s
    · exact reloadPresence_keepsDescriptors s
  · split
    · exact enterSetup_keepsDescriptors s
    · exact reloadPresence_keepsDescriptors s
  · exact (reloadPresence_keepsDescriptors s).trans (requestSent_keepsDescriptors _ _)
  all_goals exact reloadPresence_keepsDescriptors s

theorem completionEffect_keepsDescriptors : KeepsDescriptors completionEffect := fun s => by
  have hsent : DescriptorsKept s (frameSent s) := .of_buffer_none (fun _ => rfl) rfl
  unfold completionEffect; split
  · exact hsent.trans (completionTold_keepsDescriptors _ _)
  · exact .refl s

/-! ### Host commands -/

theorem inSetup_keepsDescriptors {f : State → State} (hf : KeepsDescriptors f) : KeepsDescriptors (inSetup f) := fun s => by
  unfold inSetup; split
  · exact hf s
  · exact .refl s

theorem setStationEffect_keepsDescriptors (own ring rate silence timeout retry : Byte) :
    KeepsDescriptors (setStationEffect own ring rate silence timeout retry) := fun s => by
  unfold setStationEffect; split <;> exact .refl s

theorem setChannelEffect_keepsDescriptors (channel kind prescale countLess : Byte) :
    KeepsDescriptors (setChannelEffect channel kind prescale countLess) := fun s => by
  unfold setChannelEffect; split <;> exact .refl s

theorem hostClaim_keepsDescriptors (kind : RequestKind) (x : Station) (a : Access) :
    KeepsDescriptors (hostClaim kind x a) := fun s => by
  unfold hostClaim
  split; · exact .refl s
  split; · exact .refl s
  split <;> exact .refl s

theorem readEffect_keepsDescriptors (page offset count : Byte) :
    KeepsDescriptors (readEffect page offset count) := fun s => by
  unfold readEffect; split
  · unfold readRoute; split
    · exact .refl s
    · split
      · exact .refl s
      · exact .refl s
      · split <;> exact .refl s
      · exact hostClaim_keepsDescriptors _ _ _ s
  · exact .refl s

theorem writeRoute_keepsDescriptors (a : Access) (ws : List Word) : KeepsDescriptors (writeRoute a ws) := fun s => by
  unfold writeRoute; split
  · exact .refl s
  · split
    · exact .refl s
    · exact storeWrite_keepsDescriptors _ _ _ s
    · split
      · exact .refl s
      · exact hostClaim_keepsDescriptors _ _ _ s
    · split
      · exact .refl s
      · exact hostClaim_keepsDescriptors _ _ _ s

theorem writeEffect_keepsDescriptors (page offset count : Byte) (ws : List Word) :
    KeepsDescriptors (writeEffect page offset count ws) := fun s => by
  unfold writeEffect; split
  · exact .refl s
  · split
    · exact writeRoute_keepsDescriptors _ _ s
    · exact .refl s

theorem collectEffect_keepsDescriptors (tag : Byte) : KeepsDescriptors (collectEffect tag) := fun s => by
  unfold collectEffect; split
  · exact .refl s
  · split
    · exact .refl s
    · split
      · exact .refl s
      · unfold collectEntry; split <;> exact .refl s

theorem flushPage_keepsDescriptors (p : PageNo) : KeepsDescriptors (flushPage p) := fun s => by
  unfold flushPage; split
  · split; · exact .refl s
    split; · exact .refl s
    split; · exact .refl s
    rw [enqueue_only]; exact .refl s
  · exact .refl s

theorem flushEffect_keepsDescriptors (page : Byte) : KeepsDescriptors (flushEffect page) := fun s => by
  unfold flushEffect; split
  · exact .refl s
  · split
    · exact flushPage_keepsDescriptors _ s
    · exact .refl s

theorem joinEffect_keepsDescriptors : KeepsDescriptors joinEffect := fun s => by
  unfold joinEffect; split
  · split
    · exact .refl s
    · exact enterJoining_keepsDescriptors .joining { s with configError := .none }
  · exact .refl s

theorem leaveEffect_keepsDescriptors : KeepsDescriptors leaveEffect := fun s => by
  unfold leaveEffect; split
  · exact (enterLeaving_keepsDescriptors s).of_pages_buffer rfl rfl
  · exact enterSetup_keepsDescriptors s
  · exact .refl s

theorem rejoinEffect_keepsDescriptors : KeepsDescriptors rejoinEffect := fun s => by
  unfold rejoinEffect; split
  · exact (enterJoining_keepsDescriptors .rejoined s).of_pages_buffer rfl rfl
  · exact .refl s

theorem peerEffect_keepsDescriptors (x : Byte) : KeepsDescriptors (peerEffect x) := fun s => by
  unfold peerEffect; split <;> exact .refl s

theorem pageStateEffect_keepsDescriptors (page : Byte) : KeepsDescriptors (pageStateEffect page) := fun s => by
  unfold pageStateEffect; split <;> exact .refl s

theorem channelStateEffect_keepsDescriptors (c : Byte) : KeepsDescriptors (channelStateEffect c) := fun s => by
  unfold channelStateEffect; split <;> exact .refl s

theorem popNotifyEffect_keepsDescriptors : KeepsDescriptors popNotifyEffect := fun s => by
  unfold popNotifyEffect; split <;> exact .refl s

/-! ### Every row -/

theorem taken_descriptorsKept {f : State → State} {s t : State} (hf : KeepsDescriptors f) (h : taken f s = .next t) :
    DescriptorsKept s t := by
  rw [taken_eq] at h
  cases h
  split
  · exact .refl s
  · exact hf s

/-- SET_PAGE in SETUP changes the page it names alone, and leaves the buffer. -/
theorem execSetPage_frame {page : Byte} {args : PageArgs} {s t : State} (h : execSetPage page args s = .next t) :
    (∀ p : PageNo, p.val ≠ page.toNat → t.variant p = s.variant p) ∧ t.buffer = s.buffer := by
  rw [execSetPage, taken_eq] at h
  cases h
  split
  · exact ⟨fun _ _ => rfl, rfl⟩
  unfold inSetup; split
  · unfold setPageEffect; split
    · next p v hp _ =>
      refine ⟨fun q hq => ?_, rfl⟩
      have hpage : p.val = page.toNat := by
        unfold pageOf at hp; split at hp <;> cases hp; rfl
      exact (setVariant_variant p q v s).trans (if_neg fun e : q = p => hq (e ▸ hpage))
    · exact ⟨fun _ _ => rfl, rfl⟩
  · exact ⟨fun _ _ => rfl, rfl⟩

theorem execSetPage_descriptorsKept {page : Byte} {args : PageArgs} {s t : State} (hs : s.station ≠ .setup)
    (h : execSetPage page args s = .next t) : DescriptorsKept s t := by
  rw [execSetPage, taken_eq, inSetup, if_neg hs] at h
  cases h
  split <;> exact .refl s

/-- Every row but hardware reset, and SET_PAGE in SETUP, keeps the descriptors; the frame selector alone builds an ANNOUNCE. -/
theorem exec_descriptorsKept {c : Instr} {s t : State} (h : exec c s = .next t) (hreset : c ≠ .hardwareReset)
    (hpage : ∀ page args, c = .setPage page args → s.station ≠ .setup) : DescriptorsKept s t := by
  cases c with
  | hardwareReset => exact absurd rfl hreset
  | setPage page args => exact execSetPage_descriptorsKept (hpage page args rfl) h
  | transactionDiscarded u => cases h; exact .refl s
  | resetRelease =>
    cases h
    split <;> exact .refl s
  | setStation => exact taken_descriptorsKept (inSetup_keepsDescriptors (setStationEffect_keepsDescriptors _ _ _ _ _ _)) h
  | setChannel => exact taken_descriptorsKept (inSetup_keepsDescriptors (setChannelEffect_keepsDescriptors _ _ _ _)) h
  | setMask => exact taken_descriptorsKept (f := setMaskEffect _ _) .refl h
  | join => exact taken_descriptorsKept joinEffect_keepsDescriptors h
  | leave => exact taken_descriptorsKept leaveEffect_keepsDescriptors h
  | rejoin => exact taken_descriptorsKept rejoinEffect_keepsDescriptors h
  | softReset => exact taken_descriptorsKept (f := softResetEffect) enterSetup_keepsDescriptors h
  | read => exact taken_descriptorsKept (readEffect_keepsDescriptors _ _ _) h
  | write => exact taken_descriptorsKept (writeEffect_keepsDescriptors _ _ _ _) h
  | collect => exact taken_descriptorsKept (collectEffect_keepsDescriptors _) h
  | flush => exact taken_descriptorsKept (flushEffect_keepsDescriptors _) h
  | status => exact taken_descriptorsKept (f := statusEffect) .refl h
  | peer => exact taken_descriptorsKept (peerEffect_keepsDescriptors _) h
  | pageState => exact taken_descriptorsKept (pageStateEffect_keepsDescriptors _) h
  | channelState => exact taken_descriptorsKept (channelStateEffect_keepsDescriptors _) h
  | popNotify => exact taken_descriptorsKept popNotifyEffect_keepsDescriptors h
  | clearEvents => exact taken_descriptorsKept (f := clearEventsEffect _) .refl h
  | unknownCommand => exact taken_descriptorsKept (f := unknownCommandEffect _) .refl h
  | tick => exact taken_descriptorsKept tickEffect_keepsDescriptors h
  | gatherChannelExpiry => exact taken_descriptorsKept (gatherExpiryEffect_keepsDescriptors _) h
  | periodChannelExpiry => exact taken_descriptorsKept (periodExpiryEffect_keepsDescriptors _) h
  | replyTimerExpiry => exact taken_descriptorsKept (replyTimerExpiryEffect_keepsDescriptors _) h
  | ageCounterExpiry => exact taken_descriptorsKept (ageExpiryEffect_keepsDescriptors _) h
  | silenceCounterExpiry => exact taken_descriptorsKept (silenceExpiryEffect_keepsDescriptors _) h
  | presenceTimerExpiry => exact taken_descriptorsKept presenceExpiryEffect_keepsDescriptors h
  | activityStart => exact taken_descriptorsKept activityStartEffect_keepsDescriptors h
  | updateFrame => exact taken_descriptorsKept (updateFrameEffect_keepsDescriptors _ _ _ _ _) h
  | fetchFrame => exact taken_descriptorsKept (fetchFrameEffect_keepsDescriptors _ _ _ _ _ _ _) h
  | writeFrame => exact taken_descriptorsKept (writeFrameEffect_keepsDescriptors _ _ _ _ _ _ _) h
  | replyFrame => exact taken_descriptorsKept (replyFrameEffect_keepsDescriptors _ _ _ _ _ _ _ _ _) h
  | ackFrame => exact taken_descriptorsKept (ackFrameEffect_keepsDescriptors _ _ _ _ _) h
  | announceFrame => exact taken_descriptorsKept (frameFrom_keepsDescriptors (takeAnnounce_keepsDescriptors _ _ _ _ _) _ _) h
  | presenceFrame => exact taken_descriptorsKept (frameFrom_keepsDescriptors (renewPresence_keepsDescriptors _) _ _) h
  | otherTargetFrame => exact taken_descriptorsKept (frameFrom_keepsDescriptors (renewPresence_keepsDescriptors _) _ _) h
  | leaveFrame => exact taken_descriptorsKept (frameFrom_keepsDescriptors (takeLeave_keepsDescriptors _) _ _) h
  | duplicateStationFrame =>
    exact taken_descriptorsKept (fun s => frameFrom_keepsDescriptors .refl s.record.own false s) h
  | malformedFrame => exact taken_descriptorsKept (malformedEffect_keepsDescriptors _) h
  | frameFoundBroken => exact taken_descriptorsKept (foundBrokenEffect_keepsDescriptors _) h
  | brokenFrameEnd => exact taken_descriptorsKept brokenFrameEndEffect_keepsDescriptors h
  | recoveringEnd =>
    refine taken_descriptorsKept (fun s => ?_) h
    split
    · exact recoveringEndEffect_keepsDescriptors s
    · exact .refl s
  | listenPeriodEnd => exact taken_descriptorsKept listenPeriodEndEffect_keepsDescriptors h
  | replyWindow => exact taken_descriptorsKept replyWindowEffect_keepsDescriptors h
  | rotationSlot => exact taken_descriptorsKept rotationSlotEffect_keepsDescriptors h
  | readbackMismatch => exact taken_descriptorsKept readbackMismatchEffect_keepsDescriptors h
  | abort => exact taken_descriptorsKept abortEffect_keepsDescriptors h
  | completion => exact taken_descriptorsKept completionEffect_keepsDescriptors h
  | refreshClaim => exact taken_descriptorsKept claimRefreshes_keepsDescriptors h

theorem reset_variant (p : PageNo) : State.reset.variant p = .none := by
  simp [State.variant, State.reset]

/-- With the buffer empty before, an ANNOUNCE in it after any row was built by the row, with the owned set as it stood. -/
theorem exec_announces {c : Instr} {s t : State} (h : exec c s = .next t) (hbuf : s.buffer = none) {owned : PageSet}
    (ho : Announces t.buffer owned) : owned = s.ownedSet := by
  have hempty (h' : t.buffer = none) : owned = s.ownedSet := by simp [Announces, h'] at ho
  by_cases hreset : c = .hardwareReset
  · subst hreset; cases h
    exact hempty rfl
  by_cases hpage : ∃ page args, c = .setPage page args
  · obtain ⟨page, args, rfl⟩ := hpage
    exact hempty ((execSetPage_frame h).2.trans hbuf)
  · rcases (exec_descriptorsKept h hreset fun page args e => absurd ⟨page, args, e⟩ hpage).2 owned ho with hs | hs
    · simp [Announces, hbuf] at hs
    · exact hs

/-- Settles O50: `DescriptorsKept` for every row but the two that R7 names, and these two on their own. -/
theorem descriptorsFrozen : Obligations.DescriptorsFrozen := by
  unfold Obligations.DescriptorsFrozen
  refine ⟨ownedSet_getLsbD, fun c s t h => ⟨?_, ?_, ?_, ?_⟩⟩
  · rintro rfl p
    cases h
    exact reset_variant p
  · rintro page args rfl p hp
    rw [sameDescriptor_iff_restarted, (execSetPage_frame h).1 p hp]
  · intro hreset hpage
    have hk := exec_descriptorsKept h hreset hpage
    exact ⟨fun p => (sameDescriptor_iff_restarted _ _).mpr (hk.1 p), hk.ownedSet_eq⟩
  · intro hbuf f j ring silence owned hf hbody
    exact exec_announces h hbuf ⟨f, j, ring, silence, hf, hbody⟩

end Sys2Proof.Machine
end

section
/-! SUPPORT. R131: the rank in the rotation, through one equation in the integers for every view. -/

namespace Sys2Proof.Machine

/-- The L of R131: the station that the view names, and N − 1 for UNKNOWN. -/
def lastSender (ring : Nat) : Option Station → Nat
  | some l => l.val
  | none => ring - 1

theorem rank_eq_mod (own : Station) (ring : Nat) (view : Option Station) :
    rank own ring view = (own.val + 32 * ring - lastSender ring view - 1) % ring := by
  cases view <;> rfl

theorem lastSender_lt {ring : Nat} (hring : 0 < ring) (view : Option Station) :
    lastSender ring view < 32 * ring := by
  cases view <;> simp only [lastSender] <;> omega

/-- The 32 × N that the model adds keeps its natural subtraction exact and vanishes modulo N. -/
theorem rank_cast {ring : Nat} (hring : 0 < ring) (own : Station) (view : Option Station) :
    (rank own ring view : Int) = ((own.val : Int) - lastSender ring view - 1) % ring := by
  have hlast := lastSender_lt hring view
  have hcast : ((own.val + 32 * ring - lastSender ring view - 1 : Nat) : Int) =
      (own.val : Int) - lastSender ring view - 1 + ring * 32 := by omega
  rw [rank_eq_mod, Int.natCast_mod, hcast, Int.add_mul_emod_self_left]

theorem rank_lt {ring : Nat} (hring : 0 < ring) (own : Station) (view : Option Station) : rank own ring view < ring := by
  rw [rank_eq_mod]
  exact Nat.mod_lt _ hring

theorem rank_unknown {own : Station} {ring : Nat} (hown : own.val < ring) : rank own ring none = own.val := by
  have hdiff : (own.val : Int) - lastSender ring none - 1 = own.val - ring := by simp only [lastSender]; omega
  have hrank : (rank own ring none : Int) = own.val := by
    rw [rank_cast (Nat.zero_lt_of_lt hown), hdiff, Int.sub_emod_right, Int.emod_eq_of_lt (by omega) (by omega)]
  exact_mod_cast hrank

/-- Subtracting the same L and 1 keeps two own numbers apart modulo N, and both are below N. -/
theorem own_eq_of_rank_eq {own other : Station} {ring : Nat} {view : Option Station} (hown : own.val < ring)
    (hother : other.val < ring) (h : rank own ring view = rank other ring view) : own = other := by
  have hring := Nat.zero_lt_of_lt hown
  have hmod : (own.val : Int) - lastSender ring view - 1 ≡ other.val - lastSender ring view - 1 [ZMOD ring] := by
    rw [Int.ModEq, ← rank_cast hring, ← rank_cast hring, h]
  have hcongr : (own.val : Int) ≡ other.val [ZMOD ring] := by
    simpa using (hmod.add_right 1).add_right (lastSender ring view)
  exact Fin.ext ((Int.natCast_modEq_iff.mp hcongr).eq_of_lt_of_lt hown hother)

theorem rank_own {own : Station} {ring : Nat} (hring : 0 < ring) : rank own ring (some own) = ring - 1 := by
  have hdiff : (own.val : Int) - lastSender ring (some own) - 1 = (ring - 1 : Int) - ring := by
    simp only [lastSender]; omega
  have hrank : (rank own ring (some own) : Int) = ring - 1 := by
    rw [rank_cast hring, hdiff, Int.sub_emod_right, Int.emod_eq_of_lt (by omega) (by omega)]
  omega

theorem rank_follower {own l : Station} {ring : Nat} (hring : 0 < ring) (hown : own.val = (l.val + 1) % ring) :
    rank own ring (some l) = 0 := by
  have hcongr : own.val ≡ l.val + 1 [MOD ring] := by rw [hown]; exact Nat.mod_modEq _ _
  have hdvd : (ring : Int) ∣ own.val - lastSender ring (some l) - 1 := by
    rw [sub_sub]
    exact (Int.natCast_modEq_iff.mpr hcongr).symm.dvd
  have hrank : (rank own ring (some l) : Int) = 0 := by
    rw [rank_cast hring, Int.emod_eq_zero_of_dvd hdvd]
  exact_mod_cast hrank

/-- Settles O41: the integer equation `rank_cast` gives each clause by modular arithmetic. -/
theorem rankInRotation : Obligations.RankInRotation := by
  unfold Obligations.RankInRotation
  intro own n hown _
  have hring : 0 < n := Nat.zero_lt_of_lt hown
  exact ⟨rank_unknown hown, rank_lt hring own, fun l => rank_cast hring own (some l),
    fun _ _ hother h => own_eq_of_rank_eq hown hother h, rank_own hring, fun _ h => rank_follower hring h⟩

end Sys2Proof.Machine
end

section
/-! SUPPORT. The host port: what each command of this family answers with RESETn high, said once, and from that the claims
about the station record, the channel records, the notify queue, the event flags and INTn. -/

namespace Sys2Proof.Machine

/-! ### Commands with RESETn high -/

section Running

variable {s : State}

theorem taken_of_running (f : State → State) (h : s.resetHeld = false) : taken f s = .next (f s) := by
  rw [taken_eq, if_neg (by simp [h])]

theorem taken_inSetup_of_setup (f : State → State) (h : s.resetHeld = false) (hs : s.station = .setup) :
    taken (inSetup f) s = .next (f s) := by
  rw [taken_of_running _ h, inSetup, if_pos hs]

theorem taken_inSetup_of_not_setup (f : State → State) (h : s.resetHeld = false) (hs : s.station ≠ .setup) :
    taken (inSetup f) s = .next (respond .wrongState [] s) := by
  rw [taken_of_running _ h, inSetup, if_neg hs]

theorem exec_popNotify_running (h : s.resetHeld = false) : exec .popNotify s = .next (popNotifyEffect s) :=
  taken_of_running _ h

theorem exec_clearEvents_running (named : Byte) (h : s.resetHeld = false) :
    exec (.clearEvents named) s = .next (clearEventsEffect named s) :=
  taken_of_running _ h

end Running

/-! ### Argument bytes -/

theorem stationOf_eq_some {b : Byte} {x : Station} (h : x.val = b.toNat) : stationOf b = some x := by
  rw [stationOf, dif_pos (by omega)]
  exact congrArg some (Fin.ext h.symm)

theorem stationOf_eq_none {b : Byte} (h : 31 < b.toNat) : stationOf b = none := dif_neg (by omega)

theorem channelOf_eq_some {b : Byte} {c : ChannelNo} (h : c.val = b.toNat) : channelOf b = some c := by
  rw [channelOf, dif_pos (by omega)]
  exact congrArg some (Fin.ext h.symm)

theorem channelOf_eq_none {b : Byte} (h : 7 < b.toNat) : channelOf b = none := dif_neg (by omega)

theorem rateOf_eq_some {b : Byte} {r : LineRate}
    (h : (b = 0 ∧ r = .mbit1) ∨ (b = 1 ∧ r = .mbit2_5) ∨ (b = 2 ∧ r = .mbit5) ∨ (b = 3 ∧ r = .mbit10)) :
    rateOf b = some r := by
  rcases h with ⟨rfl, rfl⟩ | ⟨rfl, rfl⟩ | ⟨rfl, rfl⟩ | ⟨rfl, rfl⟩ <;> rfl

theorem rateOf_eq_none {b : Byte} (h : 3 < b.toNat) : rateOf b = none := by
  have hne (c : Byte) (hc : c.toNat ≤ 3) : b ≠ c := by rintro rfl; omega
  rw [rateOf, if_neg (hne 0 (by decide)), if_neg (hne 1 (by decide)), if_neg (hne 2 (by decide)),
    if_neg (hne 3 (by decide))]

theorem kindOf_eq_some {b : Byte} {k : ChannelKind}
    (h : (b = 0 ∧ k = .gatherOnce) ∨ (b = 1 ∧ k = .gatherQuiet) ∨ (b = 2 ∧ k = .period)) : kindOf b = some k := by
  rcases h with ⟨rfl, rfl⟩ | ⟨rfl, rfl⟩ | ⟨rfl, rfl⟩ <;> rfl

theorem kindOf_eq_none {b : Byte} (h : 2 < b.toNat) : kindOf b = none := by
  have hne (c : Byte) (hc : c.toNat ≤ 2) : b ≠ c := by rintro rfl; omega
  rw [kindOf, if_neg (hne 0 (by decide)), if_neg (hne 1 (by decide)), if_neg (hne 2 (by decide))]

/-- CHANNEL_STATE reports the kind in the byte that SET_CHANNEL took it from (R177, R182). -/
theorem code_of_kindOf {b : Byte} {k : ChannelKind} (h : kindOf b = some k) : k.code = b := by
  unfold kindOf at h
  split_ifs at h with h0 h1 h2
  · cases h; exact h0.symm
  · cases h; exact h1.symm
  · cases h; exact h2.symm

theorem byteOf_toNat (b : Byte) : byteOf b.toNat = b := by
  simp [byteOf]

theorem byte_eq_zero_iff (b : Byte) : b = 0 ↔ b.toNat = 0 := by
  rw [← BitVec.toNat_inj]; rfl

/-! ### SET_STATION -/

theorem stationRecordOf_eq_some {a b c d e f : Byte} {own : Station} {rate : LineRate} (ha : own.val = a.toNat)
    (hb : 2 ≤ b.toNat) (hb' : b.toNat ≤ 32) (hc : rateOf c = some rate) (hd : 2 ≤ d.toNat) (he : e ≠ 0)
    (hf : f.toNat ≤ 7) :
    stationRecordOf a b c d e f =
      some { own := own, ring := b.toNat, rate := rate, silence := d.toNat, replyTimeout := e.toNat,
             retryLimit := f.toNat } := by
  rw [Ne, byte_eq_zero_iff] at he
  simp only [stationRecordOf, stationOf_eq_some ha, hc]
  exact if_neg (by omega)

theorem stationRecordOf_eq_none {a b c d e f : Byte}
    (h : 31 < a.toNat ∨ b.toNat < 2 ∨ 32 < b.toNat ∨ 3 < c.toNat ∨ d.toNat < 2 ∨ e = 0 ∨ 7 < f.toNat) :
    stationRecordOf a b c d e f = none := by
  unfold stationRecordOf
  split
  · next own rate hown hrate =>
    have ha : ¬ 31 < a.toNat := fun ha => by simp [stationOf_eq_none ha] at hown
    have hc : ¬ 3 < c.toNat := fun hc => by simp [rateOf_eq_none hc] at hrate
    rw [byte_eq_zero_iff] at h
    exact if_pos (by omega)
  · rfl

/-- Settles O4: the arguments are a station record or they are none, and nothing else decides in SETUP. -/
theorem setStationRecord : Obligations.SetStationRecord := by
  unfold Obligations.SetStationRecord
  intro a b c d e f s hheld
  refine ⟨fun hs => taken_inSetup_of_not_setup _ hheld hs, fun hs hbad => ?_,
    fun hs own rate ha hb hb' hc hd he hf => ?_⟩
  · refine (taken_inSetup_of_setup _ hheld hs).trans ?_
    rw [setStationEffect, stationRecordOf_eq_none hbad]; rfl
  · refine (taken_inSetup_of_setup _ hheld hs).trans ?_
    rw [setStationEffect, stationRecordOf_eq_some ha hb hb' (rateOf_eq_some hc) hd he hf]; rfl

/-! ### SET_CHANNEL -/

theorem channelConfigOf_eq_some {kind prescale : Byte} (countLess : Byte) {k : ChannelKind} (hk : kindOf kind = some k)
    (hlow : 1 ≤ prescale.toNat) (hhigh : prescale.toNat ≤ 64) :
    channelConfigOf kind prescale countLess =
      some { kind := k, prescale := prescale.toNat, count := countLess.toNat + 1, run := none } := by
  simp only [channelConfigOf, hk]
  exact if_neg (by omega)

theorem channelConfigOf_eq_none {kind prescale : Byte} (countLess : Byte)
    (h : 2 < kind.toNat ∨ prescale = 0 ∨ 64 < prescale.toNat) : channelConfigOf kind prescale countLess = none := by
  unfold channelConfigOf
  split
  · next k hk =>
    have hkind : ¬ 2 < kind.toNat := fun hkind => by simp [kindOf_eq_none hkind] at hk
    rw [byte_eq_zero_iff] at h
    exact if_pos (by omega)
  · rfl

theorem setChannelEffect_of_inRange {channel kind prescale countLess : Byte} {c : ChannelNo} {config : Channel}
    {s : State} (hc : channelOf channel = some c) (hconfig : channelConfigOf kind prescale countLess = some config) :
    setChannelEffect channel kind prescale countLess s =
      respond .ok [] { s with channels := s.channels.set c config } := by
  simp only [setChannelEffect, hc, hconfig]

theorem setChannelEffect_of_outOfRange {channel kind prescale countLess : Byte} {s : State}
    (h : 7 < channel.toNat ∨ 2 < kind.toNat ∨ prescale = 0 ∨ 64 < prescale.toNat) :
    setChannelEffect channel kind prescale countLess s = respond .badArgument [] s := by
  unfold setChannelEffect
  split
  · next c config hc hconfig =>
    rcases h with hchannel | hrest
    · simp [channelOf_eq_none hchannel] at hc
    · simp [channelConfigOf_eq_none countLess hrest] at hconfig
  · rfl

theorem channels_set_getElem (v : Vector Channel 8) (c c' : ChannelNo) (config : Channel) :
    (v.set c config)[c'] = if c' = c then config else v[c'] := by
  by_cases h : c' = c
  · subst h; simp
  · have hval : c.val ≠ c'.val := fun e => h (Fin.ext e.symm)
    simp [h, hval]

/-- The bytes of CHANNEL_STATE for an IDLE channel just configured: kind, prescale and count byte as given (R182). -/
theorem channelBytes_of_config {kind prescale countLess : Byte} {k : ChannelKind} (hk : kindOf kind = some k) :
    channelBytes { kind := k, prescale := prescale.toNat, count := countLess.toNat + 1, run := none } =
      [kind, prescale, countLess, 0, 0, 0] := by
  simp [channelBytes, code_of_kindOf hk, byteOf_toNat]

theorem exec_channelState_of_config {channel kind prescale countLess : Byte} {c : ChannelNo} {k : ChannelKind} {s : State}
    (hheld : s.resetHeld = false) (hc : channelOf channel = some c) (hk : kindOf kind = some k)
    (hconfig : s.channels[c] =
      { kind := k, prescale := prescale.toNat, count := countLess.toNat + 1, run := none }) :
    exec (.channelState channel) s =
      .next { s with response := [0x00#8, kind, prescale, countLess, 0, 0, 0] } := by
  refine (taken_of_running _ hheld).trans ?_
  simp only [channelStateEffect, hc, hconfig, channelBytes_of_config hk]
  rfl

/-- Settles O6: what SET_CHANNEL leaves in the channel table, read back by CHANNEL_STATE. -/
theorem setChannelRecord : Obligations.SetChannelRecord := by
  unfold Obligations.SetChannelRecord
  intro channel kind prescale countLess s hheld
  refine ⟨fun hs => taken_inSetup_of_not_setup _ hheld hs, fun hs hbad => ?_, fun hs c k hc hkind hlow hhigh => ?_⟩
  · refine (taken_inSetup_of_setup _ hheld hs).trans ?_
    rw [setChannelEffect_of_outOfRange hbad]; rfl
  · have hchannel := channelOf_eq_some hc
    have hk := kindOf_eq_some hkind
    have hconfig := channelConfigOf_eq_some countLess hk hlow hhigh
    refine ⟨_, (taken_inSetup_of_setup _ hheld hs).trans (congrArg _ (setChannelEffect_of_inRange hchannel hconfig)),
      rfl, rfl, fun c' => channels_set_getElem _ c c' _, ?_⟩
    exact exec_channelState_of_config hheld hchannel hk ((channels_set_getElem _ c c _).trans (if_pos rfl))

/-! ### Event flags and INTn -/

theorem Event.bit_lt (e : Event) : e.bit < 8 := by
  cases e <;> decide

/-- Table 10.5 gives every bit of the flags byte to an event. -/
theorem Event.exists_bit_eq {i : Nat} (h : i < 8) : ∃ e : Event, e.bit = i :=
  match i, h with
  | 0, _ => ⟨.joined, rfl⟩
  | 1, _ => ⟨.muted, rfl⟩
  | 2, _ => ⟨.left, rfl⟩
  | 3, _ => ⟨.configError, rfl⟩
  | 4, _ => ⟨.dispute, rfl⟩
  | 5, _ => ⟨.peerChange, rfl⟩
  | 6, _ => ⟨.requestDone, rfl⟩
  | 7, _ => ⟨.notifyLost, rfl⟩

theorem setFlag_flag_same (e : Event) (s : State) : (setFlag e s).flag e = true := by
  simp [State.flag, Event.byte, e.bit_lt]

theorem clearFlags_flag (named : Byte) (s : State) (e : Event) :
    (clearFlags named s).flag e = (s.flag e && !named.getLsbD e.bit) := by
  simp [State.flag, e.bit_lt]

/-- Two flag bytes have a bit in common exactly if an event has its bit in both. -/
theorem and_ne_zero_iff_exists_event (a b : Byte) :
    a &&& b ≠ 0 ↔ ∃ e : Event, a.getLsbD e.bit = true ∧ b.getLsbD e.bit = true := by
  constructor
  · intro hne
    by_contra hnone
    refine hne (BitVec.eq_of_getLsbD_eq fun i hi => ?_)
    obtain ⟨e, rfl⟩ := Event.exists_bit_eq hi
    have he : ¬ (a.getLsbD e.bit = true ∧ b.getLsbD e.bit = true) := fun h => hnone ⟨e, h⟩
    simpa using he
  · rintro ⟨e, ha, hb⟩ hzero
    have hbit : (a &&& b).getLsbD e.bit = true := by rw [BitVec.getLsbD_and, ha, hb]; rfl
    simp [hzero] at hbit

theorem intnLow_iff (s : State) :
    s.intnLow = true ↔
      (∃ e : Event, s.flag e = true ∧ s.mask.getLsbD e.bit = true) ∨ (s.notify ≠ [] ∧ s.notifyEnable = true) := by
  rw [State.intnLow, Bool.or_eq_true, bne_iff_ne, and_ne_zero_iff_exists_event]
  simp [State.flag, and_comm]

/-- With no flag set and nothing to notify, INTn is high under every mask. -/
theorem intnLow_eq_false {s : State} (hflags : s.flags = 0) (hnotify : s.notify = []) : s.intnLow = false := by
  simp [State.intnLow, hflags, hnotify]

/-- Settles O22: `clearFlags_flag` and `setFlag_flag_same`, in either order. -/
theorem clearEventsReports : Obligations.ClearEventsReports := by
  unfold Obligations.ClearEventsReports
  intro named s hheld
  refine ⟨_, exec_clearEvents_running named hheld, rfl, clearFlags_flag named s, fun e hnamed => ?_⟩
  have hset := setFlag_flag_same e (clearEventsEffect named s)
  refine ⟨hset, fun hmask => (intnLow_iff _).mpr (.inl ⟨e, hset, hmask⟩), _,
    exec_clearEvents_running (s := setFlag e s) named hheld, ?_, rfl⟩
  calc (clearFlags named (setFlag e s)).flag e
    _ = ((setFlag e s).flag e && !named.getLsbD e.bit) := clearFlags_flag named _ e
    _ = false := by rw [hnamed, Bool.not_true, Bool.and_false]

/-- Settles O24: INTn by `intnLow_iff`, and the resets leave no flag set and the notify queue empty. -/
theorem interruptLevel : Obligations.InterruptLevel := by
  unfold Obligations.InterruptLevel
  refine ⟨intnLow_iff, fun s => ⟨fun t hreset => ?_, fun hheld t hsoft => ?_⟩⟩
  · cases hreset
    refine ⟨intnLow_eq_false rfl rfl, fun u hrelease => ?_⟩
    cases hrelease
    exact intnLow_eq_false rfl rfl
  · cases (taken_of_running softResetEffect hheld).symm.trans hsoft
    exact intnLow_eq_false rfl rfl

/-! ### The notify queue -/

theorem popNotifyEffect_nil {s : State} (h : s.notify = []) : popNotifyEffect s = respond .empty [] s := by
  simp only [popNotifyEffect, h]

theorem popNotifyEffect_cons {s : State} {p : PageNo} {rest : List PageNo} (h : s.notify = p :: rest) :
    popNotifyEffect s = respond .ok [byteOf p.val] { s with notify := rest } := by
  simp only [popNotifyEffect, h]

theorem exec_popNotify_cons {s : State} {p : PageNo} {rest : List PageNo} (hheld : s.resetHeld = false)
    (h : s.notify = p :: rest) :
    exec .popNotify s = .next { s with notify := rest, response := [0x00#8, byteOf p.val] } := by
  rw [exec_popNotify_running hheld, popNotifyEffect_cons h]; rfl

theorem notifyAppend_of_mem {p : PageNo} {s : State} (h : p ∈ s.notify) : notifyAppend p s = s := if_pos h

theorem notifyAppend_of_full {p : PageNo} {s : State} (h : p ∉ s.notify) (hfull : s.notify.length = 16) :
    notifyAppend p s = setFlag .notifyLost (advance .notifyLost s) :=
  (if_neg h).trans (if_pos hfull.ge)

theorem notifyAppend_of_room {p : PageNo} {s : State} (h : p ∉ s.notify) (hroom : s.notify.length < 16) :
    notifyAppend p s = { s with notify := s.notify ++ [p] } :=
  (if_neg h).trans (if_neg hroom.not_ge)

/-- R129, with the saturated value written out. -/
theorem bump_eq (c : BitVec 16) : bump c = if c = 0xFFFF#16 then 0xFFFF#16 else c + 1 := by
  unfold bump; split
  · assumption
  · rfl

/-- A page at the head is not appended again, so the pop takes it; appended after the pop it joins at the tail (R188). -/
theorem append_and_pop_of_head {p : PageNo} {rest : List PageNo} {s : State} (hheld : s.resetHeld = false)
    (hq : s.notify = p :: rest) (hp : p ∉ rest) (hroom : rest.length < 16) :
    exec .popNotify (notifyAppend p s) = .next { s with notify := rest, response := [0x00#8, byteOf p.val] } ∧
      ∃ t, exec .popNotify s = .next t ∧ (notifyAppend p t).notify = rest ++ [p] := by
  constructor
  · rw [notifyAppend_of_mem (by simp [hq]), exec_popNotify_cons hheld hq]
  · refine ⟨_, exec_popNotify_cons hheld hq, ?_⟩
    rw [notifyAppend_of_room hp hroom]

/-- At a full queue the pop makes room for a page appended after it, and for none appended before it (R188). -/
theorem append_and_pop_of_full {p q : PageNo} {rest : List PageNo} {s : State} (hheld : s.resetHeld = false)
    (hq : s.notify = q :: rest) (hp : p ∉ s.notify) (hlen : rest.length = 15) :
    (∃ t, exec .popNotify (notifyAppend p s) = .next t ∧ t.notify = rest ∧ t.flag .notifyLost = true) ∧
      ∃ t, exec .popNotify s = .next t ∧ notifyAppend p t = { t with notify := rest ++ [p] } := by
  have hfull : s.notify.length = 16 := by rw [hq, List.length_cons, hlen]
  have hprest : p ∉ rest := fun h => hp (hq ▸ List.mem_cons_of_mem q h)
  constructor
  · rw [notifyAppend_of_full hp hfull]
    exact ⟨_, exec_popNotify_cons (s := setFlag .notifyLost (advance .notifyLost s)) hheld hq, rfl,
      setFlag_flag_same .notifyLost (advance .notifyLost s)⟩
  · exact ⟨_, exec_popNotify_cons hheld hq, notifyAppend_of_room hprest (hlen.trans_lt (by decide))⟩

/-- Settles O21: POP_NOTIFY by the queue's two shapes, an append by its three cases, and both orders of the two. -/
theorem notifyQueueOrder : Obligations.NotifyQueueOrder := by
  unfold Obligations.NotifyQueueOrder
  refine ⟨fun s hheld => ⟨fun hq => ?_, fun p rest hq => exec_popNotify_cons hheld hq⟩,
    fun p s => ⟨notifyAppend_of_mem, fun hp hfull => ?_, notifyAppend_of_room⟩,
    fun p rest s hheld hq hp hroom => append_and_pop_of_head hheld hq hp hroom,
    fun p q rest s hheld hq hp hlen => append_and_pop_of_full hheld hq hp hlen⟩
  · rw [exec_popNotify_running hheld, popNotifyEffect_nil hq]; rfl
  · rw [notifyAppend_of_full hp hfull, ← bump_eq]; rfl

end Sys2Proof.Machine
end

section
/-! PROOF. What one step is made of: a small relation of moves, each a change of the station that keeps every invariant. Each
invariant is then shown move by move, and each row of the table is shown once to be a chain of moves. -/

namespace Sys2Proof.Machine

/-! ### Moves -/

/-- The frame in the transmit buffer after a discard of the origins that `drop` chooses (R143). -/
def discarded (drop : Origin → Bool) (b : Option TxFrame) : Option TxFrame :=
  b.bind fun f => if drop f.origin then (if f.driven then some { f with discard := true } else none) else some f

theorem discardFrame_eq (drop : Origin → Bool) (s : State) :
    discardFrame drop s = { s with buffer := discarded drop s.buffer } := by
  rw [discardFrame_only, discardFrame_buffer]; rfl

/-- A page's variant after a change that reaches at most the mirror record, keeps it sound and makes no mark PENDING. -/
def PageVariant.Follows (v v' : PageVariant) : Prop :=
  v' = v ∨ ∃ d r r', v = .mirror d r ∧ v' = .mirror d r' ∧ (v.mirrorOk = true → v'.mirrorOk = true) ∧
    (r'.mark = .pending → r.mark = .pending)

/-- The pages after the requests that `sel` chooses have been ended: a page of an ended REFRESH entry has lost its PENDING mark,
and no other page has; a page that has become DISPUTED is a page with a descriptor, outside SETUP. -/
structure PagesAfterEnd (sel : Request → Bool) (s : State) (pages : Vector Page 64) : Prop where
  variant : ∀ p : PageNo, (s.variant p).Follows pages[p].variant
  start : ∀ p : PageNo, (s.variant p).mirrorAtStart = true → pages[p].variant.mirrorAtStart = true
  disputed : ∀ p : PageNo, pages[p].disputed = true → s.disputed p = true ∨ (s.station ≠ .setup ∧ s.variant p ≠ .none)
  mark : ∀ (u : Tag) (r : Request), s.table[u] = some r → r.isRefresh = true → r.isOpen = true →
    (s.variant r.page).peerOwner = some r.owner → (s.variant r.page).mark = .pending →
    (pages[r.page].variant.mark = .pending ↔ sel r = false)

/-- The request table after the frame of origin `o` has been sent (R78). -/
def tableSent (o : Origin) (s : State) : Vector (Option Request) 16 :=
  match o with
  | .request t => (requestSent t s).table
  | _ => s.table

/-- What a move can do that few rows do. A chain of moves names those it may use, so that what a row leaves alone can be read off
the effects of its chain. -/
inductive Effect
  /-- The queue of commands and RESETn. -/
  | queue
  /-- Hardware reset. -/
  | reset
  /-- The event mask. -/
  | mask
  /-- The station state. -/
  | lifecycle
  /-- Words of page memory. -/
  | words
  /-- The start of a transmission. -/
  | start
  /-- An event flag set. -/
  | flag (e : Event)
  /-- Event flags cleared. -/
  | clear
  /-- The state of a peer record replaced. -/
  | peers
  /-- An append to the notify queue. -/
  | notify
  /-- A host claim, an entry collected, a notification taken. -/
  | host
  deriving DecidableEq

/-- The moves that steps are made of, with the effects that `E` allows. A hypothesis that starts from an invariant says that the move does not take place in a state
that the invariant excludes. -/
inductive Move (E : Effect → Prop) (s : State) : State → Prop
  /-- A change of fields that no invariant names. -/
  | outside (refclk configError mutedReason receiver windowOpen response) :
    Move E s { s with
      refclk := refclk, configError := configError, mutedReason := mutedReason, receiver := receiver
      windowOpen := windowOpen, response := response }
  /-- Line and traffic counters advanced or cleared; the notify-lost counter is not advanced. -/
  | counted (counters : LineCounters) (h : counters.notifyLost.toNat ≤ s.counters.notifyLost.toNat) :
    Move E s { s with counters := counters }
  /-- The queue of commands and the level of RESETn. -/
  | queueChanged (pending resetHeld) (he : E .queue) : Move E s { s with pending := pending, resetHeld := resetHeld }
  /-- SET_MASK (R185). -/
  | maskSet (mask notifyEnable) (he : E .mask) : Move E s { s with mask := mask, notifyEnable := notifyEnable }
  /-- A flag set (R183); REQUEST_DONE is set in the moves that end a request. -/
  | flagSet (e : Event) (he : E (.flag e)) (hne : e ≠ .requestDone) : Move E s (setFlag e s)
  /-- Flags cleared (R184). -/
  | flagsCleared (named : Byte) (he : E .clear) : Move E s (clearFlags named s)
  /-- View, access timer and listen count of a station on the line. -/
  | lineTaken (view accessTimer listen) (h : SetupQuiet s → s.station ≠ .setup) :
    Move E s { s with view := view, accessTimer := accessTimer, listen := listen }
  /-- The bit-counted timers: none starts, and the transmitter neither starts nor ends. -/
  | bitsCounted (transmitter accessTimer listen) (ht : transmitter = .idle ↔ s.transmitter = .idle)
      (ha : s.accessTimer = none → accessTimer = none) (hl : s.listen = none → listen = none) :
    Move E s { s with transmitter := transmitter, accessTimer := accessTimer, listen := listen }
  /-- SET_STATION (R175). -/
  | setStation (r : StationRecord) (hs : s.station = .setup) (hr : r.inRange = true) : Move E s { s with record := r }
  /-- SET_PAGE (R6). -/
  | setPage (p : PageNo) (v : PageVariant) (hs : s.station = .setup) (hv : v.restarted = v)
      (hspan : v.spanOk = true) (hmirror : v.mirrorOk = true) : Move E s (setVariant p v s)
  /-- SET_CHANNEL (R41). -/
  | setChannel (c : ChannelNo) (config : Channel) (hs : s.station = .setup) (hc : config.inRange = true)
      (hrun : config.run = none) : Move E s { s with channels := s.channels.set c config }
  /-- POP_NOTIFY (R188). -/
  | popped (p : PageNo) (rest : List PageNo) (h : s.notify = p :: rest) (he : E .host) : Move E s { s with notify := rest }
  /-- An append to the notify queue (R187). -/
  | notified (p : PageNo) (hs : s.station ≠ .setup) (hp : p ∉ s.notify)
      (hn : s.notify.length < Config.notifyQueueSize) (he : E .notify) : Move E s { s with notify := s.notify ++ [p] }
  /-- An append to the full notify queue (R187). -/
  | notifyFull (hn : Config.notifyQueueSize ≤ s.notify.length) (he : E .notify) :
    Move E s (setFlag .notifyLost (advance .notifyLost s))
  /-- Words written within one page (R19, R56). -/
  | wordsPut (p : PageNo) (o : Nat) (ws : List Word) (h : o + ws.length ≤ 64) (he : E .words) : Move E s (putWords p o ws s)
  /-- The span of an owned page widened (R20). -/
  | spanWidened (p : PageNo) (d : OwnDesc) (r r' : OwnRun) (hv : s.variant p = .own d r)
      (hspan : (PageVariant.own d r).spanOk = true → (PageVariant.own d r').spanOk = true)
      (hsome : r.span.isSome = true → r'.span.isSome = true) : Move E s (setVariant p (.own d r') s)
  /-- A channel loaded (R42). -/
  | channelLoaded (c : ChannelNo) (h : ChannelsSound s → s.station = .active) : Move E s (loadChannel c s)
  /-- A gathering channel IDLE (R46). -/
  | channelIdle (c : ChannelNo) (h : s.channels[c].kind ≠ .period) :
    Move E s { s with channels := s.channels.set c { s.channels[c] with run := none } }
  /-- A page queued (R24). -/
  | queued (p : PageNo) (x : Extent) (hs : s.station = .active) (hp : s.eligible p = true)
      (hx : x = .span → (s.variant p).hasSpan = true) : Move E s { s with publishQueue := queueMerge s.publishQueue p x }
  /-- An answer owed (R96). -/
  | answerOwed (e : ReplyEntry) (hs : s.station = .active) (hn : s.replyQueue.length < Config.replyQueueSize) :
    Move E s (oweAnswer e s)
  /-- An answer taken for sending (R97). -/
  | answerTaken (e : ReplyEntry) (rest : List ReplyEntry) (h : s.replyQueue = e :: rest) :
    Move E s { s with replyQueue := rest }
  /-- A record added to the write filter (R105). -/
  | filtered (f : FilterRecord) (hs : s.station = .active)
      (hf : filterFind s.filter f.writer f.tag f.issue = none) : Move E s { s with filter := filterAdd f s.filter }
  /-- A host claim (R75). -/
  | hostClaimed (t : Tag) (kind : RequestKind) (x : Station) (p : PageNo) (o n : Nat) (hs : s.station = .active)
      (ht : s.table[t] = none) (hk : kind ≠ .refresh) (he : E .host) : Move E s (allocate t kind x p o n s)
  /-- A refresh claim (R58). -/
  | refreshClaimed (t : Tag) (p : PageNo) (d : MirrorDesc) (r : MirrorRun) (hs : s.station = .active)
      (ht : s.table[t] = none) (hv : s.variant p = .mirror d r) (hm : r.mark = .wanted) :
    Move E s (setVariant p (.mirror d { r with mark := .pending }) (allocate t .refresh d.owner p 0 Config.pageWords s))
  /-- A DONE or FAILED entry collected (R86). -/
  | collected (t : Tag) (r : Request) (ht : s.table[t] = some r) (ho : r.isOpen = false)
      (hr : r.isRefresh = false) (he : E .host) : Move E s (setEntry t none s)
  /-- A SENT READ or WRITE answered or timed out (R80, R81, R84). -/
  | requestEnded (t : Tag) (r : Request) (k : Counter) (phase : Phase) (ht : s.table[t] = some r)
      (hp : r.phase = .sent k) (hr : r.isRefresh = false) (hc : ({ r with phase := phase } : Request).isOpen = false)
      (he : E (.flag .requestDone)) : Move E s (setFlag .requestDone (setEntry t (some { r with phase := phase }) s))
  /-- A SENT entry retried (R84). -/
  | requestRetried (t : Tag) (r : Request) (k : Counter) (ht : s.table[t] = some r) (hp : r.phase = .sent k)
      (ha : r.attempt < s.record.retryLimit) :
    Move E s { setEntry t (some { r with attempt := r.attempt + 1, phase := .queued false }) s with sendOrder := s.sendOrder ++ [t] }
  /-- A SENT REFRESH ended: its entry FREE and its page's mark NONE (R59, R60). -/
  | refreshEnded (t : Tag) (r : Request) (k : Counter) (v : PageVariant) (ht : s.table[t] = some r)
      (hp : r.phase = .sent k) (hr : r.isRefresh = true) (hv : (s.variant r.page).Follows v) (hm : v.mark ≠ .pending)
      (hstart : s.station = .setup → (s.variant r.page).mirrorAtStart = true → v.mirrorAtStart = true) :
    Move E s (setEntry t none (setVariant r.page v s))
  /-- A mirror updated or aged (R56, R63). -/
  | mirrorChanged (p : PageNo) (d : MirrorDesc) (r r' : MirrorRun) (hv : s.variant p = .mirror d r)
      (hok : (PageVariant.mirror d r).mirrorOk = true → (PageVariant.mirror d r').mirrorOk = true ∧
        (r'.mark = .pending ↔ r.mark = .pending))
      (hs : SetupQuiet s → s.station ≠ .setup) : Move E s (setVariant p (.mirror d r') s)
  /-- TICK (R38). -/
  | ticked (pages : Vector Page 64) (channels : Vector Channel 8) (table : Vector (Option Request) 16)
      (peers : Vector PeerRecord 32)
      (hp : ∀ p : PageNo, pages[p] = { s.pages[p] with variant := s.pages[p].variant.tick })
      (hc : ∀ c : ChannelNo, channels[c] = { s.channels[c] with run := tickCounter s.channels[c].prescale s.channels[c].run })
      (ht : ∀ u : Tag, table[u] = s.table[u].map Request.tick) (hx : ∀ x : Station, peers[x] = s.peers[x].tick) :
    Move E s { s with
      pages := pages, channels := channels, table := table, peers := peers
      presenceTimer := tickCounter Config.ticksPerAge s.presenceTimer }
  /-- Requests ended from outside, with the changes of the pages, the publish queue and the filter that go with it (R89, R90,
  R107, R170). -/
  | requestsEnded (sel : Request → Bool) (why : LocalReason) (drop : Origin → Bool) (pages) (publishQueue)
      (filter) (hdrop : ∀ u : Tag, drop (.request u) = true → s.framedHit sel u = true)
      (hpages : PagesAfterEnd sel s pages) (hq : publishQueue.Sublist s.publishQueue)
      (hqd : ∀ e ∈ publishQueue, pages[e.1].disputed = s.disputed e.1) (hf : filter.Sublist s.filter)
      (he : E (.flag .requestDone))
      (hed : E (.flag .dispute) ∨ ∀ p : PageNo, pages[p].disputed = true → s.disputed p = true) :
    Move E s { s with
      table := mapTable (fun _ e => endEntry sel why e) s.table
      sendOrder := s.sendOrder.filter fun t => !s.openHit sel t
      buffer := discarded drop s.buffer, pages := pages, publishQueue := publishQueue, filter := filter
      flags := if (List.finRange 16).any (fun t => s.hostHit sel t) then s.flags ||| Event.requestDone.byte else s.flags }
  /-- Entry to MUTED with every request ended (R157). -/
  | toMuted (ht : s.transmitter = .idle) (ho : ∀ (u : Tag), ∀ r ∈ s.table[u], r.isOpen = false)
      (he : E .lifecycle) :
    Move E s { idleChannels s with
      station := .muted, buffer := discarded (fun _ => true) s.buffer, publishQueue := [], replyQueue := []
      presenceTimer := none, presenceMark := false, responseMark := false, abortCount := 0, listen := none }
  /-- Entry to LEAVING with every request ended (R159). -/
  | toLeaving (hs : s.station = .active) (ho : ∀ (u : Tag), ∀ r ∈ s.table[u], r.isOpen = false)
      (he : E .lifecycle) :
    Move E s { idleChannels s with
      station := .leaving, publishQueue := [], replyQueue := [], presenceTimer := none, presenceMark := false
      responseMark := false }
  /-- Entry to SETUP from a state without open requests (R161). -/
  | toSetup (hs : s.station ≠ .active) (he : E .lifecycle) : Move E s (enterSetup s)
  /-- SOFT_RESET (R162). -/
  | softReset (he : E .lifecycle) (hc : E .clear) :
    Move E s { enterSetup s with table := Vector.replicate 16 none, issues := Vector.replicate 16 0, sendOrder := [] }
  /-- Entry to JOINING (R154). -/
  | toJoining (cause : RecoveryCause) (hs : s.station = .setup ∨ s.station = .muted) (he : E .lifecycle) : Move E s (enterJoining cause s)
  /-- Entry to ACTIVE, before the opening publication (R156). -/
  | toActive (hs : s.station = .joining) (he : E .lifecycle) :
    Move E s (loadPeriodChannels (loadPresenceTimer { s with station := .active }))
  /-- HARDWARE_RESET (R163). -/
  | hardwareReset (he : E .reset) : Move E s State.reset
  /-- The presence timer's expiry (R146). -/
  | presenceExpired (h : s.presenceTimer ≠ none) : Move E s { s with presenceTimer := none, presenceMark := true }
  /-- The presence timer loaded (R146). -/
  | presenceLoaded (hs : s.station = .active) : Move E s (loadPresenceTimer s)
  /-- The response-ANNOUNCE mark set or cleared (R139). -/
  | responseMarked (b : Bool) (hs : s.station = .active) : Move E s { s with responseMark := b }
  /-- A peer record replaced (R164), or what a record holds beside its state (R168). -/
  | peerRecorded (x : Station) (r : PeerRecord)
      (h : s.record.inRange = true → PeersSound s → s.station ≠ .setup ∧ x ≠ s.record.own ∧ r.sound s.record.silence = true)
      (he : E .peers ∨ r.state = s.peers[x].state) : Move E s (setPeer x r s)
  /-- An abort: the frame held or removed, and the abort counted (R142, R144). -/
  | aborted (n : Nat) (ht : s.transmitter ≠ .idle) (hn : n < Config.abortLimit) :
    Move E s { s with transmitter := .idle, buffer := s.buffer.bind afterAbort, abortCount := n }
  /-- A completion, and the entry of a request frame SENT (R124, R78). -/
  | frameSent (f : TxFrame) (ht : s.transmitter ≠ .idle) (hf : s.buffer = some f) :
    Move E s { s with transmitter := .idle, buffer := none, abortCount := 0, presenceMark := false, table := tableSent f.origin s }
  /-- A frame built and started (R133). -/
  | frameStarted (o : Origin) (f : Frame) (hs : s.station.usesSlots = true) (ht : s.transmitter = .idle)
      (hb : s.buffer = none) (he : E .start) : Move E s (startFrame o f s)
  /-- A held frame started again (R138). -/
  | frameResent (f : TxFrame) (hs : s.station.usesSlots = true) (ht : s.transmitter = .idle) (hf : s.buffer = some f)
      (he : E .start) : Move E s { s with buffer := some { f with driven := true }, transmitter := .sending 0 }
  /-- The head of the send order framed (R77). -/
  | frameClaimed (t : Tag) (rest : List Tag) (r : Request) (f : TxFrame) (hq : s.sendOrder = t :: rest)
      (ht : s.table[t] = some r) (hf : s.buffer = some f) (ho : f.origin = .request t) (hd : f.discard = false)
      (he : E .start) :
    Move E s { setEntry t (some { r with phase := .queued true }) s with sendOrder := rest }
  /-- The head of the publish queue built into an UPDATE (R30). -/
  | published (p : PageNo) (x : Extent) (rest : List (PageNo × Extent)) (d : OwnDesc) (r : OwnRun) (v : Byte)
      (hq : s.publishQueue = (p, x) :: rest) (hv : s.variant p = .own d r) :
    Move E s { setVariant p (.own d { version := v, span := none }) s with publishQueue := rest }

variable {E : Effect → Prop}

/-! ### Page memory and the queues (R1, R96, R105, R187) -/

theorem Move.memorySound {s t : State} (h : Move E s t) (hs : MemorySound s) : MemorySound t := by
  cases h with
  | wordsPut p o ws ho => exact putWords_memoryWf hs ho
  | hardwareReset => exact reset_memoryWf
  | _ => simpa [MemorySound, enterSetup, enterJoining] using hs

theorem Move.notifyQueueSound {s t : State} (h : Move E s t) (hs : NotifyQueueSound s) : NotifyQueueSound t := by
  obtain ⟨hlen, hnd, hset⟩ := hs
  cases h with
  | popped p rest h =>
    rw [h] at hlen hnd hset
    exact ⟨Nat.le_of_succ_le hlen, hnd.of_cons, fun e => absurd (hset e) (List.cons_ne_nil _ _)⟩
  | notified p hs hp hn =>
    refine ⟨by simpa using hn, ?_, fun e => absurd e hs⟩
    simpa [List.nodup_append, hnd] using fun a ha (e : a = p) => hp (e ▸ ha)
  | toSetup | softReset | hardwareReset => exact ⟨Nat.zero_le _, List.nodup_nil, fun _ => rfl⟩
  | toMuted | toLeaving | toJoining | toActive => simpa [NotifyQueueSound, enterJoining] using ⟨hlen, hnd⟩
  | _ => simpa [NotifyQueueSound, enterSetup, enterJoining] using ⟨hlen, hnd, hset⟩

theorem filterFind_eq_none {filter : List FilterRecord} {x : Station} {t : Tag} {i : Issue} :
    filterFind filter x t i = none ↔ ∀ f ∈ filter, ¬ (f.writer = x ∧ f.tag = t ∧ f.issue = i) := by
  simp [filterFind, and_assoc]

/-- A record with a new key keeps the filter within its size and its keys apart. -/
theorem filterAdd_sound {filter : List FilterRecord} {f : FilterRecord} (hlen : filter.length ≤ Config.filterSize)
    (hnd : (filter.map fun f => (f.writer, f.tag, f.issue)).Nodup)
    (hf : filterFind filter f.writer f.tag f.issue = none) :
    (filterAdd f filter).length ≤ Config.filterSize ∧
      ((filterAdd f filter).map fun f => (f.writer, f.tag, f.issue)).Nodup := by
  rw [filterFind_eq_none] at hf
  have hadd : ∀ l : List FilterRecord, l.Sublist filter →
      ((l ++ [f]).map fun f => (f.writer, f.tag, f.issue)).Nodup := fun l hl => by
    rw [List.map_append, List.nodup_append]
    refine ⟨(hl.map _).nodup hnd, by simp, ?_⟩
    simp only [List.map_cons, List.map_nil, List.mem_map, List.mem_singleton]
    rintro _ ⟨g, hg, rfl⟩ _ rfl e
    exact hf g (hl.subset hg) (by simpa using e)
  unfold filterAdd
  split
  · exact ⟨by simp [Config.filterSize] at *; omega, hadd _ (List.drop_sublist _ _)⟩
  · exact ⟨by simp [Config.filterSize] at *; omega, hadd _ (List.Sublist.refl _)⟩

theorem Move.serviceSound {s t : State} (h : Move E s t) (hs : ServiceSound s) : ServiceSound t := by
  obtain ⟨hlen, hact, hflen, hfnd, hset⟩ := hs
  cases h with
  | answerOwed e hs hn => exact ⟨by simpa using hn, fun e => absurd hs e, hflen, hfnd, hset⟩
  | answerTaken e rest h =>
    rw [h] at hlen hact
    exact ⟨Nat.le_of_succ_le hlen, fun e => absurd (hact e) (List.cons_ne_nil _ _), hflen, hfnd, hset⟩
  | filtered f hs hf =>
    obtain ⟨hl, hn⟩ := filterAdd_sound hflen hfnd hf
    exact ⟨hlen, hact, hl, hn, fun e => nomatch hs.symm.trans e⟩
  | requestsEnded sel why drop pages q filter hdrop hpages hq hqd hf =>
    exact ⟨hlen, hact, hf.length_le.trans hflen, (hf.map _).nodup hfnd,
      fun e => List.sublist_nil.1 (hset e ▸ hf)⟩
  | toMuted | toLeaving => simpa [ServiceSound] using ⟨hflen, hfnd⟩
  | toSetup | softReset | hardwareReset =>
    exact ⟨Nat.zero_le _, fun _ => rfl, Nat.zero_le _, List.nodup_nil, fun _ => rfl⟩
  | toJoining cause hs =>
    have hq : s.replyQueue = [] := hact (by rcases hs with e | e <;> simp [e])
    simp [ServiceSound, enterJoining, hq]
  | toActive hs => simpa [ServiceSound] using ⟨hlen, hflen, hfnd⟩
  | _ => simpa [ServiceSound, enterSetup, enterJoining] using ⟨hlen, hact, hflen, hfnd, hset⟩

/-! ### Spans, the publish queue and disputes (R9, R20, R23) -/

theorem PageVariant.Follows.spanOk_eq {v v' : PageVariant} (h : v.Follows v') : v'.spanOk = v.spanOk := by
  rcases h with rfl | ⟨d, r, r', rfl, rfl, -, -⟩ <;> rfl

theorem PageVariant.Follows.own {v v' : PageVariant} (h : v.Follows v') {d : OwnDesc} {r : OwnRun} (hv : v = .own d r) :
    v' = .own d r := by
  rcases h with rfl | ⟨d, r, r', rfl, rfl, -, -⟩
  · exact hv
  · cases hv

theorem PageVariant.Follows.eq_none {v v' : PageVariant} (h : v.Follows v') (hv : v' = .none) : v = .none := by
  rcases h with rfl | ⟨d, r, r', rfl, rfl, -, -⟩
  · exact hv
  · cases hv

theorem PageVariant.Follows.mirrorOk {v v' : PageVariant} (h : v.Follows v') (hv : v.mirrorOk = true) :
    v'.mirrorOk = true := by
  rcases h with rfl | ⟨d, r, r', rfl, rfl, hok, -⟩
  · exact hv
  · exact hok hv

/-- What holds of every page still holds after one page has been given a variant of which it holds. -/
theorem forall_setVariant {P : PageVariant → Prop} {s : State} {p : PageNo} {v : PageVariant}
    (h : ∀ q, P (s.variant q)) (hv : P v) (q : PageNo) : P ((setVariant p v s).variant q) := by
  rw [setVariant_variant]; split
  · exact hv
  · exact h q

theorem enterSetup_variant (s : State) (p : PageNo) : (enterSetup s).variant p = (s.variant p).restarted := by
  simp [enterSetup, State.variant]

theorem enterSetup_disputed (s : State) (p : PageNo) : (enterSetup s).disputed p = false := by
  simp [enterSetup, State.disputed]

theorem enterJoining_variant (cause : RecoveryCause) (s : State) (p : PageNo) :
    (enterJoining cause s).variant p = (s.variant p).emptied := by
  simp [enterJoining, State.variant, mapVariants]

theorem enterJoining_disputed (cause : RecoveryCause) (s : State) (p : PageNo) :
    (enterJoining cause s).disputed p = s.disputed p := by
  simp [enterJoining, State.disputed, mapVariants]

theorem reset_disputed (p : PageNo) : State.reset.disputed p = false := by
  simp [State.reset, State.disputed]

theorem Move.spansSound {s t : State} (h : Move E s t) (hs : SpansSound s) : SpansSound t := by
  cases h with
  | setPage p v _ _ hv => exact forall_setVariant (P := fun v => v.spanOk = true) hs hv
  | spanWidened p d r r' hv hspan =>
    exact forall_setVariant (P := fun v => v.spanOk = true) hs (hspan (hv ▸ hs p))
  | refreshClaimed t p d r => exact forall_setVariant (P := fun v => v.spanOk = true) hs rfl
  | refreshEnded t r k v _ _ _ hv =>
    exact forall_setVariant (P := fun v => v.spanOk = true) hs (hv.spanOk_eq.trans (hs r.page))
  | mirrorChanged p d r r' => exact forall_setVariant (P := fun v => v.spanOk = true) hs rfl
  | ticked pages _ _ _ hp =>
    intro p
    have ht : (s.variant p).tick.spanOk = (s.variant p).spanOk := by cases s.variant p <;> rfl
    exact (congrArg (PageVariant.spanOk ∘ Page.variant) (hp p)).trans (ht.trans (hs p))
  | requestsEnded sel why drop pages q filter hdrop hpages => exact fun p => (hpages.variant p).spanOk_eq.trans (hs p)
  | toSetup | softReset =>
    intro p
    have hp : ∀ v : PageVariant, v.restarted.spanOk = true := fun v => by cases v <;> rfl
    exact (congrArg PageVariant.spanOk (enterSetup_variant s p)).trans (hp _)
  | toJoining cause =>
    intro p; rw [enterJoining_variant]; have := hs p; revert this
    cases s.variant p <;> exact id
  | hardwareReset => intro p; rw [reset_variant]; rfl
  | published p x rest d r v => exact forall_setVariant (P := fun v => v.spanOk = true) hs rfl
  | _ => simpa [SpansSound, State.variant] using hs

theorem eligible_iff (s : State) (p : PageNo) :
    s.eligible p = true ↔ ∃ d r, s.variant p = .own d r ∧ d.policy ≠ .quiet ∧ s.disputed p = false := by
  unfold State.eligible
  cases h : s.variant p <;> simp

/-- The publish queue stays sound where pages leave it, and those that stay keep descriptor, span and DISPUTED flag. -/
theorem PublishQueueSound.sublist {s t : State} (h : PublishQueueSound s) (hq : t.publishQueue.Sublist s.publishQueue)
    (hpages : ∀ e ∈ t.publishQueue, ∀ d r, s.variant e.1 = .own d r → s.disputed e.1 = false →
      t.disputed e.1 = false ∧ ∃ r', t.variant e.1 = .own d r' ∧ (r.span.isSome = true → r'.span.isSome = true))
    (hst : t.station ≠ .active → s.station ≠ .active) : PublishQueueSound t := by
  obtain ⟨hnd, hall, hact⟩ := h
  refine ⟨(hq.map _).nodup hnd, fun e he => ?_, fun ht => List.sublist_nil.1 (hact (hst ht) ▸ hq)⟩
  obtain ⟨hel, hspan⟩ := hall e (hq.subset he)
  obtain ⟨d, r, hv, hquiet, hdis⟩ := (eligible_iff s e.1).1 hel
  obtain ⟨hdis', r', hv', hsome⟩ := hpages e he d r hv hdis
  refine ⟨(eligible_iff t e.1).2 ⟨d, r', hv', hquiet, hdis'⟩, fun hx => ?_⟩
  have := hspan hx
  simp only [hv, hv', PageVariant.hasSpan] at this ⊢
  exact hsome this

/-- What the queue's soundness reads: the queue, the pages and the station state. -/
theorem PublishQueueSound.of_fields {s t : State} (h : PublishQueueSound s) (hq : t.publishQueue = s.publishQueue)
    (hp : t.pages = s.pages) (hst : t.station = s.station) : PublishQueueSound t := by
  unfold PublishQueueSound State.eligible State.disputed State.variant at h ⊢
  rw [hq, hp, hst]
  exact h

theorem PublishQueueSound.of_nil {t : State} (h : t.publishQueue = []) : PublishQueueSound t := by
  simp [PublishQueueSound, h]

/-- A change of one page that leaves an owned page owned, with its descriptor and at least its span, keeps the queue sound. -/
theorem PublishQueueSound.setVariant {s : State} {p : PageNo} {v : PageVariant} (h : PublishQueueSound s)
    (hv : ∀ d r, s.variant p = .own d r → ∃ r', v = .own d r' ∧ (r.span.isSome = true → r'.span.isSome = true)) :
    PublishQueueSound (setVariant p v s) := by
  refine h.sublist (List.Sublist.refl _) (fun e _ d r hown hdis => ⟨by simpa using hdis, ?_⟩) id
  rw [setVariant_variant]; split
  · next heq => exact hv d r (heq ▸ hown)
  · exact ⟨r, hown, id⟩

/-- An entry of a queue after a page is put in it is one of the queue, the new one, or one with the extents joined. -/
theorem mem_queueMerge {q : List (PageNo × Extent)} {p : PageNo} {x : Extent} {e : PageNo × Extent}
    (h : e ∈ queueMerge q p x) : e ∈ q ∨ (e.1 = p ∧ (e.2 = .span → x = .span)) := by
  unfold queueMerge at h; split at h
  · obtain ⟨e', he', rfl⟩ := List.mem_map.1 h
    split
    · refine .inr ⟨rfl, ?_⟩
      cases e'.2 <;> cases x <;> simp [Extent.join]
    · exact .inl he'
  · rcases List.mem_append.1 h with h | h
    · exact .inl h
    · obtain rfl := List.mem_singleton.1 h
      exact .inr ⟨rfl, id⟩

theorem queueMerge_nodup {q : List (PageNo × Extent)} (h : (q.map Prod.fst).Nodup) (p : PageNo) (x : Extent) :
    ((queueMerge q p x).map Prod.fst).Nodup := by
  rw [queueMerge_pages]; split
  · exact h
  · next hp => exact List.nodup_append.2 ⟨h, by simp, fun a ha b hb e => hp (by simp_all)⟩

theorem Move.publishQueueSound {s t : State} (h : Move E s t) (hs : PublishQueueSound s) : PublishQueueSound t := by
  have hnil : s.station ≠ .active → s.publishQueue = [] := hs.2.2
  cases h with
  | setPage p v hst => exact .of_nil (hnil (by simp [hst]))
  | spanWidened p d r r' hv _ hsome =>
    exact hs.setVariant fun d' r'' e => by cases hv.symm.trans e; exact ⟨r', rfl, hsome⟩
  | queued p x hst hp hx =>
    obtain ⟨hnd, hall, -⟩ := hs
    refine ⟨queueMerge_nodup hnd p x, fun e he => ?_, fun e => absurd hst e⟩
    rcases mem_queueMerge he with he | ⟨rfl, hspan⟩
    · exact hall e he
    · exact ⟨hp, fun e => hx (hspan e)⟩
  | refreshClaimed t p d r _ _ hv => exact hs.setVariant (s := s) fun d' r'' e => nomatch hv.symm.trans e
  | refreshEnded t r k v _ _ _ hv =>
    exact hs.setVariant (s := s) fun d' r'' e => ⟨r'', hv.own e, id⟩
  | mirrorChanged p d r r' hv => exact hs.setVariant fun d' r'' e => nomatch hv.symm.trans e
  | ticked pages _ _ _ hp =>
    refine hs.sublist (List.Sublist.refl _) (fun e _ d r hown hdis => ?_) id
    refine ⟨(congrArg Page.disputed (hp e.1)).trans hdis, r, (congrArg Page.variant (hp e.1)).trans ?_, id⟩
    exact (congrArg PageVariant.tick hown).trans rfl
  | requestsEnded sel why drop pages q filter hdrop hpages hq hqd =>
    exact hs.sublist hq (fun e he d r hown hdis => ⟨(hqd e he).trans hdis, r, (hpages.variant e.1).own hown, id⟩) id
  | toMuted | toLeaving | toSetup | softReset | hardwareReset => exact .of_nil rfl
  | toJoining cause hst =>
    have hq := hnil (by rcases hst with e | e <;> simp [e])
    exact .of_nil (by simpa [enterJoining] using hq)
  | toActive hst =>
    have hq := hnil (by simp [hst])
    exact .of_nil (by simpa using hq)
  | published p x rest d r v hq hv =>
    have hnd := hs.1
    rw [hq] at hnd
    refine hs.sublist (hq ▸ List.sublist_cons_self _ _) (fun e he d' r' hown hdis => ⟨?_, r', ?_, id⟩) id
    · exact (setVariant_disputed p e.1 _ s).trans hdis
    · have hne : e.1 ≠ p := fun heq =>
        (List.nodup_cons.1 hnd).1 (heq ▸ List.mem_map_of_mem (f := Prod.fst) (l := rest) (a := e) he)
      exact ((setVariant_variant p e.1 _ s).trans (if_neg hne)).trans hown
  | _ => exact hs.of_fields rfl rfl rfl

theorem DisputesSound.of_clear {t : State} (h : ∀ p, t.disputed p = false) : DisputesSound t :=
  ⟨fun _ p => h p, fun p _ => h p⟩

/-- The DISPUTED flags stay sound where a page becomes DISPUTED only outside SETUP, and no page loses its descriptor. -/
theorem DisputesSound.mono {s t : State} (h : DisputesSound s)
    (hdis : ∀ p, t.disputed p = true → s.disputed p = true ∨ (s.station ≠ .setup ∧ s.variant p ≠ .none))
    (hnone : ∀ p, t.variant p = .none → s.variant p = .none) (hst : t.station = .setup → s.station = .setup) :
    DisputesSound t := by
  refine ⟨fun ht p => ?_, fun p hp => ?_⟩ <;> refine Bool.eq_false_iff.2 fun hd => ?_ <;>
    rcases hdis p hd with hd | ⟨hs, hv⟩
  · exact absurd hd (by simp [h.1 (hst ht) p])
  · exact hs (hst ht)
  · exact absurd hd (by simp [h.2 p (hnone p hp)])
  · exact hv (hnone p hp)

theorem DisputesSound.setVariant {s : State} {p : PageNo} {v : PageVariant} (h : DisputesSound s)
    (hv : v = .none → s.variant p = .none) : DisputesSound (setVariant p v s) := by
  refine h.mono (fun q hq => .inl ((setVariant_disputed p q v s).symm.trans hq)) (fun q hq => ?_) id
  rw [setVariant_variant] at hq; split at hq
  · next e => exact e ▸ hv hq
  · exact hq

theorem Move.disputesSound {s t : State} (h : Move E s t) (hs : DisputesSound s) : DisputesSound t := by
  cases h with
  | setPage p v hst => exact .of_clear fun q => (setVariant_disputed p q v s).trans (hs.1 hst q)
  | spanWidened p d r r' | mirrorChanged p d r r' => exact hs.setVariant fun e => nomatch e
  | refreshClaimed t p d r => exact hs.setVariant (s := s) fun e => nomatch e
  | refreshEnded t r k v _ _ _ hv => exact hs.setVariant (s := s) hv.eq_none
  | published p x rest d r v => exact hs.setVariant (s := s) fun e => nomatch e
  | ticked pages _ _ _ hp =>
    refine hs.mono (fun q hq => .inl ((congrArg Page.disputed (hp q)).symm.trans hq)) (fun q hq => ?_) id
    have ht : (s.variant q).tick = .none := (congrArg Page.variant (hp q)).symm.trans hq
    revert ht; cases s.variant q <;> simp [PageVariant.tick]
  | requestsEnded sel why drop pages q filter hdrop hpages =>
    exact hs.mono hpages.disputed (fun p hp => (hpages.variant p).eq_none hp) id
  | toSetup | softReset => exact .of_clear (enterSetup_disputed s)
  | toJoining cause =>
    refine hs.mono (fun q hq => .inl ((enterJoining_disputed cause s q).symm.trans hq)) (fun q hq => ?_)
      fun e => nomatch e
    rw [enterJoining_variant] at hq
    revert hq; cases s.variant q <;> simp [PageVariant.emptied]
  | toMuted | toLeaving | toActive =>
    refine hs.mono (fun q hq => .inl ?_) (fun q hq => ?_) fun e => nomatch e
    · simpa [State.disputed] using hq
    · simpa [State.variant] using hq
  | hardwareReset => exact .of_clear reset_disputed
  | _ => exact hs

/-! ### Channels and the presence timer (R40, R42, R43, R148) -/

theorem counterWithin_load {prescale count : Nat} (hp : 1 ≤ prescale) (hc : 1 ≤ count) :
    counterWithin prescale count (some (Counter.load prescale count)) = true := by
  simp [counterWithin, Counter.load, hp, hc]

theorem counterWithin_tick {prescale count : Nat} (c : Option Counter) (h : counterWithin prescale count c = true) :
    counterWithin prescale count (tickCounter prescale c) = true := by
  cases c with
  | none => rfl
  | some c =>
    simp only [counterWithin, decide_eq_true_eq] at h
    simp only [tickCounter, Option.map_some, counterWithin, Counter.tick, decide_eq_true_eq]
    split
    · exact h
    split
    · exact ⟨by simp only; omega, by simp only; omega, h.2.2⟩
    split
    · exact ⟨by simp only; omega, by simp only; omega, by simp only; omega, by simp only; omega⟩
    · exact h

/-- What ChannelsSound says of one channel in station state `st`. -/
def Channel.soundIn (st : StationState) (c : Channel) : Prop :=
  c.inRange = true ∧ (st ≠ .active → c.run = none) ∧ (st = .active → c.kind = .period → c.run.isSome = true)

theorem Channel.load_inRange {c : Channel} (h : c.inRange = true) : c.load.inRange = true := by
  simp only [Channel.inRange, Bool.and_eq_true, decide_eq_true_eq] at h ⊢
  exact ⟨h.1, counterWithin_load h.1.1 h.1.2.2.1⟩

theorem Channel.idle_inRange {c : Channel} (h : c.inRange = true) : ({ c with run := none } : Channel).inRange = true := by
  simp only [Channel.inRange, Bool.and_eq_true, decide_eq_true_eq] at h ⊢
  exact ⟨h.1, rfl⟩

theorem Channel.idle_soundIn {c : Channel} {st : StationState} (h : c.inRange = true) (hst : st ≠ .active) :
    ({ c with run := none } : Channel).soundIn st :=
  ⟨c.idle_inRange h, fun _ => rfl, fun e => absurd e hst⟩

/-- Every channel stays sound where one is replaced by a sound one. -/
theorem channelsSound_set {s : State} (hs : ChannelsSound s) (c : ChannelNo) {config : Channel}
    (hc : config.soundIn s.station) : ChannelsSound { s with channels := s.channels.set c config } := by
  intro c'
  simp only [channels_set_getElem]
  split
  · exact hc
  · exact hs c'

/-- Every channel IDLE is sound outside ACTIVE. -/
theorem channelsSound_idle {s t : State} (hs : ChannelsSound s) (ht : t.station ≠ .active)
    (hc : ∀ c : ChannelNo, t.channels[c] = { s.channels[c] with run := none }) : ChannelsSound t := by
  intro c
  rw [hc c]
  exact Channel.idle_soundIn (hs c).1 ht

theorem Move.channelsSound {s t : State} (h : Move E s t) (hs : ChannelsSound s) : ChannelsSound t := by
  cases h with
  | setChannel c config hst hc hrun =>
    exact channelsSound_set hs c ⟨hc, fun _ => hrun, fun e => nomatch hst.symm.trans e⟩
  | channelLoaded c hst =>
    exact channelsSound_set hs c ⟨Channel.load_inRange (hs c).1, fun e => absurd (hst hs) e, fun _ _ => rfl⟩
  | channelIdle c hk =>
    exact channelsSound_set hs c ⟨Channel.idle_inRange (hs c).1, fun _ => rfl, fun _ e => absurd e hk⟩
  | ticked _ channels _ _ _ hc =>
    intro c
    obtain ⟨hr, hidle, hperiod⟩ := hs c
    simp only [hc]
    simp only [Channel.inRange, Bool.and_eq_true] at hr ⊢
    refine ⟨⟨hr.1, counterWithin_tick _ hr.2⟩, fun e => ?_, fun e hk => ?_⟩
    · exact congrArg (tickCounter _) (hidle e)
    · simpa [tickCounter] using hperiod e hk
  | toMuted | toLeaving => exact channelsSound_idle hs (by simp) fun c => by simp [idleChannels]
  | toSetup | softReset => exact channelsSound_idle hs (by simp [enterSetup]) fun c => by simp [enterSetup]
  | toJoining cause hst =>
    have hna : s.station ≠ .active := by rcases hst with e | e <;> simp [e]
    intro c
    have hc : (enterJoining cause s).channels = s.channels := by simp [enterJoining]
    rw [hc]
    exact ⟨(hs c).1, fun _ => (hs c).2.1 hna, fun e => nomatch e⟩
  | toActive hst =>
    intro c
    have hc : (loadPeriodChannels (loadPresenceTimer { s with station := .active })).channels[c] =
        if s.channels[c].kind = .period then s.channels[c].load else s.channels[c] := by simp [loadPeriodChannels]
    rw [hc]
    refine ⟨?_, fun e => absurd rfl e, ?_⟩ <;> split
    · exact Channel.load_inRange (hs c).1
    · exact (hs c).1
    · exact fun _ _ => rfl
    · next hk => exact fun _ e => absurd e hk
  | hardwareReset => intro c; simp [State.reset, Channel.reset, Channel.inRange, counterWithin]
  | _ => exact hs

theorem Move.presenceSound {s t : State} (h : Move E s t) (hs : PresenceSound s) : PresenceSound t := by
  cases h with
  | presenceExpired hp => exact fun e => absurd (hs e).1 hp
  | presenceLoaded hst | responseMarked b hst => exact fun e => absurd hst e
  | ticked =>
    intro e
    obtain ⟨ht, hm, hr⟩ := hs e
    exact ⟨by simp [tickCounter, ht], hm, hr⟩
  | toMuted | toLeaving | toSetup | softReset | hardwareReset => exact fun _ => ⟨rfl, rfl, rfl⟩
  | toJoining => intro _; simp [enterJoining]
  | toActive => exact fun e => absurd rfl e
  | frameSent => exact fun e => ⟨(hs e).1, rfl, (hs e).2.2⟩
  | _ => exact hs

/-! ### The peer table (R164) -/

theorem PeerRecord.tick_sound {limit : Nat} {r : PeerRecord} (h : r.sound limit = true) : r.tick.sound limit = true := by
  unfold PeerRecord.tick
  split
  · next c hc =>
    simp only [PeerRecord.sound, hc] at h ⊢
    exact counterWithin_tick (some c) h
  · exact h

theorem PeerRecord.tick_absent {r : PeerRecord} (h : r.state = .absent) : r.tick = r := by
  simp [PeerRecord.tick, h]

theorem PeersSound.of_start {t : State} (h : ∀ x : Station, t.peers[x] = PeerRecord.start) : PeersSound t := by
  refine ⟨fun x => ?_, ?_, fun _ x => ?_⟩ <;> rw [h] <;> rfl

theorem Move.recordInRange {s t : State} (h : Move E s t) (hs : s.record.inRange = true) : t.record.inRange = true := by
  cases h with
  | setStation r hst hr => exact hr
  | hardwareReset => decide
  | _ => simpa [enterSetup, enterJoining] using hs

theorem Move.peersSound {s t : State} (h : Move E s t) (hr : s.record.inRange = true) (hs : PeersSound s) :
    PeersSound t := by
  obtain ⟨hall, hown, hset⟩ := hs
  cases h with
  | setStation r hst =>
    refine ⟨fun x => ?_, hset hst _, hset⟩
    have := hall x
    simp only [PeerRecord.sound, hset hst x] at this ⊢
    exact this
  | ticked _ _ _ peers _ _ _ hx =>
    refine ⟨fun x => ?_, ?_, fun e x => ?_⟩ <;> simp only [hx]
    · exact PeerRecord.tick_sound (hall x)
    · rw [PeerRecord.tick_absent hown, hown]
    · rw [PeerRecord.tick_absent (hset e x), hset e x]
  | peerRecorded x r h =>
    obtain ⟨hst, hx, hr⟩ := h hr ⟨hall, hown, hset⟩
    refine ⟨fun y => ?_, ?_, fun e => absurd e hst⟩
    · rw [setPeer_getElem]; split
      · exact hr
      · exact hall y
    · rw [setPeer_getElem, if_neg (fun e => hx (by simpa using e.symm))]; exact hown
  | toSetup | softReset => exact .of_start fun x => by simp [enterSetup]
  | toJoining => exact .of_start fun x => by simp [enterJoining]
  | hardwareReset => exact .of_start fun x => by simp [State.reset, PeerRecord.start]
  | toMuted | toLeaving | toActive =>
    have hp : PeersSound { s with station := .active } := ⟨hall, hown, fun e => nomatch e⟩
    simpa [PeersSound] using hp
  | _ => exact ⟨hall, hown, hset⟩

/-! ### The transmit buffer (R142, R143, R144) -/

theorem discarded_any_driven (drop : Origin → Bool) (b : Option TxFrame) :
    ((discarded drop b).any fun f => f.driven) = b.any fun f => f.driven := by
  cases b with
  | none => rfl
  | some f =>
    simp only [discarded, Option.bind_some]
    split
    · cases h : f.driven <;> simp [h]
    · rfl

/-- A frame that a discard leaves is the frame that was there, marked only if it is being driven. -/
theorem mem_discarded {drop : Origin → Bool} {b : Option TxFrame} {f : TxFrame} (h : f ∈ discarded drop b) :
    f ∈ b ∨ (f.driven = true ∧ f.discard = true ∧ drop f.origin = true) := by
  cases b with
  | none => cases h
  | some g =>
    simp only [discarded, Option.bind_some] at h
    split at h
    · next hd =>
      split at h
      · next hg =>
        obtain rfl := Option.mem_some.1 h
        exact .inr ⟨hg, rfl, hd⟩
      · cases h
    · exact .inl h

/-- With the buffer empty and the transmitter IDLE only the abort count matters. -/
theorem TransmitSound.of_empty {t : State} (hb : t.buffer = none) (ht : t.transmitter = .idle)
    (hn : t.abortCount < Config.abortLimit) : TransmitSound t := by
  simp [TransmitSound, hb, ht, hn]

/-- A frame that is being driven, in a station state that sends. -/
theorem TransmitSound.of_driven {t : State} {f : TxFrame} (hst : t.station.usesSlots = true) (hb : t.buffer = some f)
    (hd : f.driven = true) (ht : t.transmitter ≠ .idle) (hn : t.abortCount < Config.abortLimit) : TransmitSound t := by
  simp [TransmitSound, hst, hb, hd, ht, hn]

theorem Move.transmitSound {s t : State} (h : Move E s t) (hs : TransmitSound s) : TransmitSound t := by
  obtain ⟨hslots, hdriven, hmark, hcount⟩ := hs
  have hidle : s.buffer = none → s.transmitter = .idle := fun e => by
    by_contra hne
    have := hdriven.1 hne
    simp [e] at this
  cases h with
  | bitsCounted tx a l ht => exact ⟨hslots, (not_congr ht).trans hdriven, hmark, hcount⟩
  | requestsEnded sel why drop =>
    refine ⟨fun e => ?_, ?_, fun f hf hd => ?_, hcount⟩
    · have := hslots e
      simp [discarded, this]
    · simpa [discarded_any_driven] using hdriven
    · rcases mem_discarded hf with hf | ⟨h, -, -⟩
      · exact hmark f hf hd
      · exact h
  | toMuted ht =>
    refine .of_empty ?_ ht (Nat.zero_lt_succ _)
    have hno : (s.buffer.any fun f => f.driven) = false := Bool.eq_false_iff.2 fun e => hdriven.2 e ht
    cases hb : s.buffer with
    | none => rfl
    | some f => simp_all [discarded]
  | toLeaving | toActive => simpa [TransmitSound, StationState.usesSlots] using ⟨hdriven, hmark, hcount⟩
  | toSetup | softReset => exact .of_empty rfl rfl (Nat.zero_lt_succ _)
  | toJoining cause hst =>
    have hb : s.buffer = none := hslots (by rcases hst with e | e <;> simp [e, StationState.usesSlots])
    simp [TransmitSound, enterJoining, hidle hb, Config.abortLimit]
  | hardwareReset => exact .of_empty rfl rfl (Nat.zero_lt_succ _)
  | aborted n ht hn =>
    refine ⟨fun e => ?_, ?_, ?_, hn⟩
    · have := hslots e
      simp [this]
    · cases s.buffer with
      | none => simp
      | some f => cases hd : f.discard <;> simp [afterAbort, hd]
    · cases s.buffer with
      | none => exact fun f hf => nomatch hf
      | some f => cases hd : f.discard <;> simp [afterAbort, hd]
  | frameSent f ht hf => exact .of_empty rfl rfl (Nat.zero_lt_succ _)
  | frameStarted o f hst ht hb => exact .of_driven hst rfl rfl (by simp) hcount
  | frameResent f hst ht hf => exact .of_driven hst rfl rfl (by simp) hcount
  | _ => exact ⟨hslots, hdriven, hmark, hcount⟩

/-! ### SETUP (R148, R152) -/

theorem mirrorAtStart_emptied (v : PageVariant) : v.emptied.mirrorAtStart = true := by
  cases v <;> simp [PageVariant.emptied, PageVariant.mirrorAtStart]

theorem mirrorAtStart_restarted (v : PageVariant) : v.restarted.mirrorAtStart = true := by
  cases v <;> simp [PageVariant.restarted, PageVariant.mirrorAtStart]

theorem mirrorAtStart_tick {v : PageVariant} (h : v.mirrorAtStart = true) : v.tick.mirrorAtStart = true := by
  cases v with
  | mirror d r =>
    simp only [PageVariant.mirrorAtStart, beq_iff_eq] at h
    subst h; rfl
  | _ => rfl

theorem Move.setupQuiet {s t : State} (h : Move E s t) (hs : SetupQuiet s) : SetupQuiet t := by
  cases h with
  | lineTaken v a l h => exact fun e => absurd e (h hs)
  | bitsCounted tx a l ht ha hl =>
    intro e
    obtain ⟨hi, hv, hat, hln, hrest⟩ := hs e
    exact ⟨ht.2 hi, hv, ha hat, hl hln, hrest⟩
  | setPage p v hst hv =>
    intro e
    obtain ⟨hi, hw, hat, hln, hb, hn, hpt, hpm, hrm, hm⟩ := hs e
    exact ⟨hi, hw, hat, hln, hb, hn, hpt, hpm, hrm,
      forall_setVariant (P := fun v => v.mirrorAtStart = true) hm (hv ▸ mirrorAtStart_restarted v)⟩
  | spanWidened p d r r' hv =>
    intro e
    obtain ⟨hi, hw, hat, hln, hb, hn, hpt, hpm, hrm, hm⟩ := hs e
    exact ⟨hi, hw, hat, hln, hb, hn, hpt, hpm, hrm, forall_setVariant (P := fun v => v.mirrorAtStart = true) hm rfl⟩
  | refreshEnded t r k v _ _ _ _ _ hstart =>
    intro e
    obtain ⟨hi, hw, hat, hln, hb, hn, hpt, hpm, hrm, hm⟩ := hs e
    exact ⟨hi, hw, hat, hln, hb, hn, hpt, hpm, hrm,
      forall_setVariant (P := fun v => v.mirrorAtStart = true) hm (hstart e (hm r.page))⟩
  | published p x rest d r v =>
    intro e
    obtain ⟨hi, hw, hat, hln, hb, hn, hpt, hpm, hrm, hm⟩ := hs e
    exact ⟨hi, hw, hat, hln, hb, hn, hpt, hpm, hrm, forall_setVariant (P := fun v => v.mirrorAtStart = true) hm rfl⟩
  | mirrorChanged p d r r' _ _ hst => exact fun e => absurd e (hst hs)
  | queued _ _ hst | answerOwed _ hst | filtered _ hst | hostClaimed _ _ _ _ _ _ hst | refreshClaimed _ _ _ _ hst
  | presenceLoaded hst | responseMarked _ hst => exact fun e => nomatch hst.symm.trans e
  | ticked pages _ _ _ hp =>
    intro e
    obtain ⟨hi, hw, hat, hln, hb, hn, hpt, hpm, hrm, hm⟩ := hs e
    refine ⟨hi, hw, hat, hln, hb, hn, by simp [tickCounter, hpt], hpm, hrm, fun p => ?_⟩
    exact (congrArg (PageVariant.mirrorAtStart ∘ Page.variant) (hp p)).trans (mirrorAtStart_tick (hm p))
  | requestsEnded sel why drop pages q filter hdrop hpages =>
    intro e
    obtain ⟨hi, hw, hat, hln, hb, hn, hpt, hpm, hrm, hm⟩ := hs e
    exact ⟨hi, hw, hat, hln, by simp [discarded, hb], hn, hpt, hpm, hrm, fun p => hpages.start p (hm p)⟩
  | toMuted | toLeaving | toActive => exact fun e => nomatch e
  | toJoining => intro e; simp [enterJoining] at e
  | toSetup | softReset =>
    intro _
    refine ⟨rfl, rfl, rfl, rfl, rfl, rfl, rfl, rfl, rfl, fun p => ?_⟩
    exact (congrArg PageVariant.mirrorAtStart (enterSetup_variant s p)).trans (mirrorAtStart_restarted _)
  | hardwareReset =>
    refine fun _ => ⟨rfl, rfl, rfl, rfl, rfl, rfl, rfl, rfl, rfl, fun p => ?_⟩
    rw [reset_variant]; rfl
  | presenceExpired hp => exact fun e => absurd (hs e).2.2.2.2.2.2.1 hp
  | aborted n ht | frameSent f ht => exact fun e => absurd (hs e).1 ht
  | frameStarted o f hst | frameResent f hst =>
    intro e
    have e : s.station = .setup := e
    simp [e, StationState.usesSlots] at hst
  | frameClaimed t rest r f _ _ hf => exact fun e => nomatch hf.symm.trans (hs e).2.2.2.2.1
  | _ => exact hs

end Sys2Proof.Machine
end

section
/-! PROOF. Mirrors, request entries, the send order and the refresh marks, move by move (R51, R57, R71, R76). -/

namespace Sys2Proof.Machine

variable {E : Effect → Prop}

/-! ### Mirror records -/

theorem mirrorOk_iff (d : MirrorDesc) (r : MirrorRun) :
    (PageVariant.mirror d r).mirrorOk = true ↔
      (r.state = .empty ↔ r.last = .none) ∧ (r.state = .empty → r.mark = .none) ∧
        (r.state = .empty ∨ r.state = .stale → r.age = .none) ∧ (d.ageLimit = 0 → r.age = .none) ∧
        counterWithin Config.ticksPerAge d.ageLimit r.age = true := by
  simp only [PageVariant.mirrorOk, Bool.and_eq_true, decide_eq_true_eq, and_assoc]

theorem mirrorOk_start (d : MirrorDesc) : (PageVariant.mirror d MirrorRun.start).mirrorOk = true := by
  simp [mirrorOk_iff, MirrorRun.start, counterWithin]

theorem mirrorOk_restarted (v : PageVariant) : v.restarted.mirrorOk = true := by
  cases v with
  | mirror d r => exact mirrorOk_start d
  | _ => rfl

theorem mirrorOk_emptied (v : PageVariant) : v.emptied.mirrorOk = true := by
  cases v with
  | mirror d r => exact mirrorOk_start d
  | _ => rfl

theorem mirrorOk_tick {v : PageVariant} (h : v.mirrorOk = true) : v.tick.mirrorOk = true := by
  cases v with
  | mirror d r =>
    rw [mirrorOk_iff] at h
    obtain ⟨hlast, hmark, hage, hlimit, hwithin⟩ := h
    refine (mirrorOk_iff _ _).2 ⟨hlast, hmark, fun e => ?_, fun e => ?_, counterWithin_tick _ hwithin⟩
    · exact congrArg (tickCounter _) (hage e)
    · exact congrArg (tickCounter _) (hlimit e)
  | _ => rfl

/-- A sound mirror whose mark is not NONE is not EMPTY, so any mark is sound there. -/
theorem mirrorOk_withMark {d : MirrorDesc} {r : MirrorRun} (h : (PageVariant.mirror d r).mirrorOk = true)
    (hm : r.mark ≠ .none) (m : RefreshMark) : (PageVariant.mirror d { r with mark := m }).mirrorOk = true := by
  rw [mirrorOk_iff] at h
  obtain ⟨hlast, hmark, hage, hlimit, hwithin⟩ := h
  exact (mirrorOk_iff _ _).2 ⟨hlast, fun e => absurd (hmark e) hm, hage, hlimit, hwithin⟩

theorem Move.mirrorsSound {s t : State} (h : Move E s t) (hs : MirrorsSound s) : MirrorsSound t := by
  cases h with
  | setPage p v _ _ _ hv => exact forall_setVariant (P := fun v => v.mirrorOk = true) hs hv
  | spanWidened p d r r' => exact forall_setVariant (P := fun v => v.mirrorOk = true) hs rfl
  | refreshClaimed t p d r _ _ hv hm =>
    exact forall_setVariant (P := fun v => v.mirrorOk = true) hs (mirrorOk_withMark (hv ▸ hs p) (by simp [hm]) _)
  | refreshEnded t r k v _ _ _ hv =>
    exact forall_setVariant (P := fun v => v.mirrorOk = true) hs (hv.mirrorOk (hs r.page))
  | mirrorChanged p d r r' hv hok =>
    exact forall_setVariant (P := fun v => v.mirrorOk = true) hs (hok (hv ▸ hs p)).1
  | ticked pages _ _ _ hp =>
    exact fun p => (congrArg (PageVariant.mirrorOk ∘ Page.variant) (hp p)).trans (mirrorOk_tick (hs p))
  | requestsEnded sel why drop pages q filter hdrop hpages => exact fun p => (hpages.variant p).mirrorOk (hs p)
  | toSetup | softReset =>
    exact fun p => (congrArg PageVariant.mirrorOk (enterSetup_variant s p)).trans (mirrorOk_restarted _)
  | toJoining cause => intro p; rw [enterJoining_variant]; exact mirrorOk_emptied _
  | hardwareReset => intro p; rw [reset_variant]; rfl
  | published p x rest d r v => exact forall_setVariant (P := fun v => v.mirrorOk = true) hs rfl
  | _ => simpa [MirrorsSound, State.variant] using hs

/-! ### Request entries -/

/-- What RequestsSound says of the entry `r` of tag `u`. -/
def Request.soundIn (s : State) (u : Tag) (r : Request) : Prop :=
  r.sound s.record = true ∧ (r.isOpen = true → s.station = .active) ∧
    (r.isFramed = true → ∃ f ∈ s.buffer, f.origin = .request u ∧ f.discard = false)

theorem Request.isOpen_of_waits {r : Request} (h : r.waits = true) : r.isOpen = true := by
  unfold Request.waits at h
  unfold Request.isOpen
  split at h <;> simp_all

theorem Request.isOpen_of_isFramed {r : Request} (h : r.isFramed = true) : r.isOpen = true := by
  unfold Request.isFramed at h
  unfold Request.isOpen
  split at h <;> simp_all

theorem Request.not_waits_of_isFramed {r : Request} (h : r.isFramed = true) : r.waits = false := by
  unfold Request.isFramed at h
  unfold Request.waits
  split at h <;> simp_all

/-- Soundness of an entry by its phase: an open entry within the retry limit, a SENT one with its timer within the timeout, and
a REFRESH entry open, of 64 words at offset 0. -/
theorem Request.sound_iff (record : StationRecord) (r : Request) :
    r.sound record = true ↔
      (r.isOpen = true → r.attempt ≤ record.retryLimit) ∧
        (r.isRefresh = true → r.isOpen = true ∧ r.offset = 0 ∧ r.count = Config.pageWords) ∧
        ∀ k, r.phase = .sent k → counterWithin Config.ticksPerMs record.replyTimeout (some k) = true := by
  unfold Request.sound
  rw [Bool.and_eq_true, Bool.and_eq_true, decide_eq_true_eq, decide_eq_true_eq, and_assoc]
  refine and_congr_right' (and_congr_right' ?_)
  cases r.phase <;> simp

/-- A closed entry is sound whatever the station record. -/
theorem Request.sound_of_closed {record record' : StationRecord} {r : Request} (h : r.sound record = true)
    (hc : r.isOpen = false) : r.sound record' = true := by
  obtain ⟨-, hr, -⟩ := (r.sound_iff record).1 h
  refine (r.sound_iff record').2 ⟨by simp [hc], hr, fun k hk => ?_⟩
  simp [Request.isOpen, hk] at hc

theorem RequestsSound.entry {s : State} (h : RequestsSound s) {u : Tag} {r : Request} (hr : s.table[u] = some r) :
    r.soundIn s u := h.2.2 u r hr

theorem RequestsSound.closed_of_not_active {s : State} (h : RequestsSound s) (hst : s.station ≠ .active) (u : Tag) :
    ∀ r ∈ s.table[u], r.isOpen = false := fun _ hr =>
  Bool.eq_false_iff.2 fun e => hst ((h.entry hr).2.1 e)

/-- With no entry open, the table and the send order alone matter. -/
theorem RequestsSound.closed {s t : State} (h : RequestsSound s) (hc : ∀ u : Tag, ∀ r ∈ s.table[u], r.isOpen = false)
    (ht : t.table = s.table) (ho : t.sendOrder = s.sendOrder) : RequestsSound t := by
  obtain ⟨hnd, hmem, hall⟩ := h
  refine ⟨ho ▸ hnd, fun u => ?_, fun u r hr => ?_⟩
  · rw [ho, ht]; exact hmem u
  · rw [ht] at hr
    have hopen := hc u r hr
    refine ⟨Request.sound_of_closed (hall u r hr).1 hopen, by simp [hopen], fun hf => ?_⟩
    simp [Request.isOpen_of_isFramed hf] at hopen

theorem RequestsSound.of_free {t : State} (ht : ∀ u : Tag, t.table[u] = none) (ho : t.sendOrder = []) :
    RequestsSound t := by
  refine ⟨by simp [ho], fun u => ?_, fun u r hr => ?_⟩
  · rw [ho, ht u]; simp
  · rw [ht u] at hr; cases hr

/-- A change of the transmit buffer that keeps the frame of every framed entry. -/
theorem RequestsSound.of_buffer {s t : State} (h : RequestsSound s) (hr : t.record = s.record) (hst : t.station = s.station)
    (ht : t.table = s.table) (ho : t.sendOrder = s.sendOrder)
    (hb : ∀ (u : Tag), ∀ f ∈ s.buffer, f.origin = .request u → f.discard = false →
      ∃ g ∈ t.buffer, g.origin = .request u ∧ g.discard = false) : RequestsSound t := by
  obtain ⟨hnd, hmem, hall⟩ := h
  refine ⟨ho ▸ hnd, fun u => ?_, fun u r hu => ?_⟩
  · rw [ho, ht]; exact hmem u
  · rw [ht] at hu
    obtain ⟨hsound, hopen, hframed⟩ := hall u r hu
    rw [hr, hst]
    refine ⟨hsound, hopen, fun hf => ?_⟩
    obtain ⟨f, hf, hor, hd⟩ := hframed hf
    exact hb u f hf hor hd

/-- One entry replaced, with a send order that tells its tag and leaves the others. -/
theorem RequestsSound.set {s t : State} (h : RequestsSound s) {u : Tag} {e : Option Request}
    (hrec : t.record = s.record) (hst : t.station = s.station) (hbuf : t.buffer = s.buffer)
    (ht : t.table = s.table.set u e) (hnd : t.sendOrder.Nodup)
    (hother : ∀ v, v ≠ u → (v ∈ t.sendOrder ↔ v ∈ s.sendOrder))
    (hsame : u ∈ t.sendOrder ↔ (e.any fun r => r.waits) = true) (he : ∀ r ∈ e, r.soundIn s u) : RequestsSound t := by
  have htab : ∀ v : Tag, t.table[v] = if v = u then e else s.table[v] := fun v => by
    rw [ht]; exact setEntry_getElem u v e s
  refine ⟨hnd, fun v => ?_, fun v r hr => ?_⟩
  · rw [htab v]; split
    · next hv => rw [hv]; exact hsame
    · next hv => exact (hother v hv).trans (h.2.1 v)
  · rw [htab v] at hr
    rw [hrec, hst, hbuf]
    split at hr
    · next hv => rw [hv]; exact he r hr
    · exact h.entry hr

theorem RequestsSound.not_mem_of_not_waits {s : State} (h : RequestsSound s) {u : Tag} {r : Request}
    (hu : s.table[u] = some r) (hw : r.waits = false) : u ∉ s.sendOrder := fun hm => by
  have := (h.2.1 u).1 hm
  simp [hu, hw] at this

theorem RequestsSound.not_mem_of_free {s : State} (h : RequestsSound s) {u : Tag} (hu : s.table[u] = none) :
    u ∉ s.sendOrder := fun hm => by
  have := (h.2.1 u).1 hm
  simp [hu] at this

/-- One entry replaced by one that waits, its tag at the tail of the send order. -/
theorem RequestsSound.append {s t : State} (h : RequestsSound s) {u : Tag} {r : Request} (hu : u ∉ s.sendOrder)
    (hrec : t.record = s.record) (hst : t.station = s.station) (hbuf : t.buffer = s.buffer)
    (ht : t.table = s.table.set u (some r)) (ho : t.sendOrder = s.sendOrder ++ [u]) (hw : r.waits = true)
    (hr : r.soundIn s u) : RequestsSound t := by
  refine h.set hrec hst hbuf ht ?_ (fun v hv => ?_) ?_ fun r' hr' => ?_
  · rw [ho]; exact List.nodup_append.2 ⟨h.1, by simp, fun a ha b hb e => hu (by simp_all)⟩
  · simp [ho, hv]
  · simp [ho, hw]
  · cases hr'; exact hr

/-- One entry that does not wait replaced by one that does not, or by none. -/
theorem RequestsSound.replace {s t : State} (h : RequestsSound s) {u : Tag} {r : Request} {e : Option Request}
    (hu : s.table[u] = some r) (hw : r.waits = false) (hrec : t.record = s.record) (hst : t.station = s.station)
    (hbuf : t.buffer = s.buffer) (ht : t.table = s.table.set u e) (ho : t.sendOrder = s.sendOrder)
    (hwaits : (e.any fun r => r.waits) = false) (he : ∀ r ∈ e, r.soundIn s u) : RequestsSound t := by
  refine h.set hrec hst hbuf ht (ho ▸ h.1) (fun v _ => by rw [ho]) ?_ he
  rw [ho, hwaits]
  simpa using h.not_mem_of_not_waits hu hw

theorem Request.not_waits_of_sent {r : Request} {k : Counter} (h : r.phase = .sent k) : r.waits = false := by
  simp [Request.waits, h]

theorem Request.not_waits_of_closed {r : Request} (h : r.isOpen = false) : r.waits = false := by
  cases hw : r.waits with
  | false => rfl
  | true => simp [Request.isOpen_of_waits hw] at h

/-- A new claim of a FREE tag is sound. -/
theorem soundIn_claim {s : State} (hst : s.station = .active) (u : Tag) {r : Request} (hp : r.phase = .queued false)
    (ha : r.attempt = 0) (hr : r.isRefresh = true → r.offset = 0 ∧ r.count = Config.pageWords) : r.soundIn s u := by
  refine ⟨(r.sound_iff _).2 ⟨fun _ => by omega, fun e => ⟨by simp [Request.isOpen, hp], hr e⟩, ?_⟩, fun _ => hst, ?_⟩
  · simp [hp]
  · simp [Request.isFramed, hp]

theorem Request.tick_isOpen (r : Request) : r.tick.isOpen = r.isOpen := by
  unfold Request.tick; split
  · next h => simp [Request.isOpen, h]
  · rfl

theorem Request.tick_isFramed (r : Request) : r.tick.isFramed = r.isFramed := by
  unfold Request.tick; split
  · next h => simp [Request.isFramed, h]
  · rfl

theorem Request.tick_waits (r : Request) : r.tick.waits = r.waits := by
  unfold Request.tick; split
  · next h => simp [Request.waits, h]
  · rfl

theorem Request.tick_sound {record : StationRecord} {r : Request} (h : r.sound record = true) :
    r.tick.sound record = true := by
  unfold Request.tick; split
  · next k hk =>
    obtain ⟨ha, hr, hsent⟩ := (r.sound_iff record).1 h
    have hopen : r.isOpen = true := by simp [Request.isOpen, hk]
    refine (Request.sound_iff record _).2 ⟨fun _ => ha hopen, fun e => ⟨rfl, (hr e).2⟩, fun k' hk' => ?_⟩
    cases hk'
    exact counterWithin_tick (some k) (hsent k hk)
  · exact h

theorem openHit_eq (s : State) (sel : Request → Bool) (u : Tag) :
    s.openHit sel u = s.table[u].any fun r => r.isOpen && sel r := by
  unfold State.openHit
  cases s.table[u] <;> rfl

theorem framedHit_eq (s : State) (sel : Request → Bool) (u : Tag) :
    s.framedHit sel u = s.table[u].any fun r => r.isOpen && sel r && r.isFramed := by
  unfold State.framedHit
  cases s.table[u] <;> rfl

theorem hostHit_eq (s : State) (sel : Request → Bool) (u : Tag) :
    s.hostHit sel u = s.table[u].any fun r => r.isOpen && sel r && !r.isRefresh := by
  unfold State.hostHit
  cases s.table[u] <;> rfl

/-- An entry after requests have been ended from outside: one that was not chosen, or one that has failed. -/
theorem endEntry_eq_some {sel : Request → Bool} {why : LocalReason} {e : Option Request} {r : Request}
    (h : endEntry sel why e = some r) :
    (e = some r ∧ (r.isOpen && sel r) = false) ∨
      ∃ r', e = some r' ∧ r'.isOpen = true ∧ sel r' = true ∧ r'.isRefresh = false ∧ r = { r' with phase := .failed why } := by
  cases e with
  | none => cases h
  | some r' =>
    simp only [endEntry] at h
    split at h
    · next hsel =>
      simp only [Bool.and_eq_true] at hsel
      split at h
      · cases h
      · next hr => exact .inr ⟨r', rfl, hsel.1, hsel.2, by simpa using hr, by simpa using h.symm⟩
    · next hsel =>
      cases h
      exact .inl ⟨rfl, by simpa using hsel⟩

theorem endEntry_waits (sel : Request → Bool) (why : LocalReason) (e : Option Request) :
    ((endEntry sel why e).any fun r => r.waits) =
      ((e.any fun r => r.waits) && !(e.any fun r => r.isOpen && sel r)) := by
  cases e with
  | none => rfl
  | some r =>
    simp only [endEntry, Option.any_some]
    cases ho : (r.isOpen && sel r)
    · simp
    · simp only [if_true]
      split <;> simp [Request.waits]

/-- A discard leaves a frame whose origin it does not choose. -/
theorem mem_discarded_of_not_drop {drop : Origin → Bool} {b : Option TxFrame} {f : TxFrame} (hf : f ∈ b)
    (hd : drop f.origin = false) : f ∈ discarded drop b := by
  obtain rfl := Option.mem_def.1 hf
  simp [discarded, hd]

theorem RequestsSound.ended {s t : State} (h : RequestsSound s) {sel : Request → Bool} {why : LocalReason}
    {drop : Origin → Bool} (hdrop : ∀ u : Tag, drop (.request u) = true → s.framedHit sel u = true)
    (hrec : t.record = s.record) (hst : t.station = s.station) (hbuf : t.buffer = discarded drop s.buffer)
    (ht : ∀ u : Tag, t.table[u] = endEntry sel why s.table[u])
    (ho : t.sendOrder = s.sendOrder.filter fun u => !s.openHit sel u) : RequestsSound t := by
  refine ⟨ho ▸ h.1.filter _, fun u => ?_, fun u r hr => ?_⟩
  · rw [ht u, endEntry_waits, ho, List.mem_filter, openHit_eq, Bool.and_eq_true]
    exact and_congr_left' (h.2.1 u)
  rw [ht u] at hr
  rw [hrec, hst, hbuf]
  rcases endEntry_eq_some hr with ⟨hu, hsel⟩ | ⟨r', hu, -, -, href, rfl⟩
  · obtain ⟨hsound, hopen, hframed⟩ := h.entry hu
    refine ⟨hsound, hopen, fun hf => ?_⟩
    obtain ⟨f, hmem, hor, hd⟩ := hframed hf
    refine ⟨f, mem_discarded_of_not_drop hmem (Bool.eq_false_iff.2 fun hdr => ?_), hor, hd⟩
    rw [hor] at hdr
    have := hdrop u hdr
    simp [framedHit_eq, hu, hsel] at this
  · have hclosed : ({ r' with phase := .failed why } : Request).isOpen = false := rfl
    refine ⟨(Request.sound_iff _ _).2 ⟨by simp [hclosed], fun e => ?_, by simp⟩, by simp [hclosed], fun e => ?_⟩
    · exact absurd (show r'.isRefresh = true from e) (by simp [href])
    · simp [Request.isOpen_of_isFramed e] at hclosed

/-- The entry of the frame just sent is SENT with its timer loaded, and no entry is framed any more. -/
theorem RequestsSound.sent {s t : State} (h : RequestsSound s) (hin : s.record.inRange = true) {f : TxFrame}
    (hf : s.buffer = some f) (hrec : t.record = s.record) (hst : t.station = s.station)
    (ht : t.table = tableSent f.origin s) (ho : t.sendOrder = s.sendOrder) : RequestsSound t := by
  have hframe : ∀ (u : Tag) (r : Request), s.table[u] = some r → r.isFramed = true → f.origin = .request u :=
    fun u r hu hr => by
      obtain ⟨g, hg, hor, -⟩ := (h.entry hu).2.2 hr
      rw [hf] at hg; cases hg; exact hor
  by_cases hex : ∃ (u : Tag) (r : Request), s.table[u] = some r ∧ r.isFramed = true
  · obtain ⟨u, r, hu, hr⟩ := hex
    have hor := hframe u r hu hr
    have htab : t.table =
        s.table.set u (some { r with phase := .sent (Counter.load Config.ticksPerMs s.record.replyTimeout) }) := by
      rw [ht, hor]
      simp only [tableSent, requestSent, hu, hr, if_true, setEntry_table]
    have hopen := Request.isOpen_of_isFramed hr
    have hw := Request.not_waits_of_isFramed hr
    obtain ⟨hsound, hact, -⟩ := h.entry hu
    have hget : ∀ v : Tag, t.table[v] = if v = u then
        some { r with phase := .sent (Counter.load Config.ticksPerMs s.record.replyTimeout) } else s.table[v] := fun v => by
      rw [htab]; exact setEntry_getElem u v _ s
    refine ⟨ho ▸ h.1, fun v => ?_, fun v q hq => ?_⟩
    · rw [hget v, ho]; split
      · next hv =>
        rw [hv]
        simpa [Request.waits] using h.not_mem_of_not_waits hu hw
      · exact h.2.1 v
    · rw [hget v] at hq
      rw [hrec, hst]
      split at hq
      · obtain rfl := Option.mem_some.1 hq
        obtain ⟨hatt, href, -⟩ := (r.sound_iff _).1 hsound
        refine ⟨(Request.sound_iff _ _).2 ⟨fun _ => hatt hopen, fun e => ⟨rfl, (href e).2⟩, fun k hk => ?_⟩,
          fun _ => hact hopen, fun e => nomatch e⟩
        cases hk
        simp only [StationRecord.inRange, decide_eq_true_eq] at hin
        exact counterWithin_load (by decide) hin.2.2.2.2.1
      · next hv =>
        obtain ⟨hqs, hqa, -⟩ := h.entry hq
        refine ⟨hqs, hqa, fun hqf => ?_⟩
        have := (hframe v q hq hqf).symm.trans hor
        exact absurd (by simpa using this) hv
  · have htab : t.table = s.table := by
      rw [ht]
      unfold tableSent
      split
      · next u _ =>
        unfold requestSent
        split
        · next r hu => rw [if_neg fun hr => hex ⟨u, r, hu, hr⟩]
        · rfl
      · rfl
    refine ⟨ho ▸ h.1, fun v => ?_, fun v q hq => ?_⟩
    · rw [ho, htab]; exact h.2.1 v
    · rw [htab] at hq
      rw [hrec, hst]
      obtain ⟨hqs, hqa, -⟩ := h.entry hq
      exact ⟨hqs, hqa, fun hqf => absurd ⟨v, q, hq, hqf⟩ hex⟩

theorem Move.requestsSound {s t : State} (h : Move E s t) (hin : s.record.inRange = true) (hs : RequestsSound s) :
    RequestsSound t := by
  cases h with
  | setStation r hst => exact hs.closed (hs.closed_of_not_active (by simp [hst])) rfl rfl
  | hostClaimed t kind x p o n hst ht hk =>
    refine hs.append (hs.not_mem_of_free ht) rfl rfl rfl rfl rfl rfl (soundIn_claim hst t rfl rfl fun e => ?_)
    cases kind <;> simp_all [Request.isRefresh]
  | refreshClaimed t p d r hst ht =>
    exact hs.append (hs.not_mem_of_free ht) rfl rfl rfl rfl rfl rfl (soundIn_claim hst t rfl rfl fun _ => ⟨rfl, rfl⟩)
  | collected t r ht ho =>
    exact hs.replace ht (Request.not_waits_of_closed ho) rfl rfl rfl rfl rfl rfl fun _ e => nomatch e
  | requestEnded t r k phase ht hp hr hc =>
    have hw := Request.not_waits_of_closed hc
    refine hs.replace ht (Request.not_waits_of_sent hp) rfl rfl rfl rfl rfl (by simpa using hw) fun q hq => ?_
    cases hq
    refine ⟨(Request.sound_iff _ _).2 ⟨by simp [hc], fun e => ?_, fun k' hk => ?_⟩, by simp [hc], fun e => ?_⟩
    · exact absurd (show r.isRefresh = true from e) (by simp [hr])
    · simp only at hk; simp [Request.isOpen, hk] at hc
    · simp [Request.isOpen_of_isFramed e] at hc
  | requestRetried t r k ht hp ha =>
    obtain ⟨hsound, hact, -⟩ := hs.entry ht
    obtain ⟨-, href, -⟩ := (r.sound_iff _).1 hsound
    have hnot := hs.not_mem_of_not_waits ht (Request.not_waits_of_sent hp)
    have hopen : r.isOpen = true := by simp [Request.isOpen, hp]
    refine hs.append hnot rfl rfl rfl rfl rfl rfl ⟨(Request.sound_iff _ _).2 ⟨fun _ => ha, fun e => ?_, ?_⟩, ?_, ?_⟩
    · exact ⟨rfl, (href e).2⟩
    · exact fun k hk => nomatch hk
    · exact fun _ => hact hopen
    · exact fun e => nomatch e
  | refreshEnded t r k v ht hp =>
    exact hs.replace ht (Request.not_waits_of_sent hp) rfl rfl rfl rfl rfl rfl fun _ e => nomatch e
  | ticked pages channels table peers hp hc ht =>
    refine ⟨hs.1, fun u => ?_, fun u r hr => ?_⟩
    · refine (hs.2.1 u).trans ?_
      simp only [ht]
      cases s.table[u] <;> simp [Request.tick_waits]
    · simp only [ht] at hr
      obtain ⟨q, hq, rfl⟩ := Option.map_eq_some_iff.1 hr
      obtain ⟨hsound, hact, hframed⟩ := hs.entry hq
      exact ⟨Request.tick_sound hsound, fun e => hact (q.tick_isOpen ▸ e), fun e => hframed (q.tick_isFramed ▸ e)⟩
  | requestsEnded sel why drop pages q filter hdrop =>
    exact hs.ended (why := why) hdrop rfl rfl rfl (fun u => by simp) rfl
  | toMuted ht ho | toLeaving hst ho => exact hs.closed ho rfl rfl
  | toSetup hst => exact hs.closed (hs.closed_of_not_active hst) rfl rfl
  | toJoining cause hst =>
    exact hs.closed (hs.closed_of_not_active (by rcases hst with e | e <;> simp [e])) (by simp [enterJoining])
      (by simp [enterJoining])
  | toActive hst => exact hs.closed (hs.closed_of_not_active (by simp [hst])) (by simp) (by simp)
  | softReset | hardwareReset => exact .of_free (fun u => by simp [State.reset]) rfl
  | aborted n ht =>
    refine hs.of_buffer rfl rfl rfl rfl fun u f hf hor hd => ⟨{ f with driven := false }, ?_, hor, hd⟩
    rw [Option.mem_def.1 hf]
    simp [afterAbort, hd]
  | frameSent f ht hf => exact hs.sent hin hf rfl rfl rfl rfl
  | frameStarted o f hst ht hb =>
    refine hs.of_buffer rfl rfl rfl rfl fun u f hf => ?_
    rw [hb] at hf; cases hf
  | frameResent f hst ht hb =>
    refine hs.of_buffer rfl rfl rfl rfl fun u g hg hor hd => ⟨{ g with driven := true }, ?_, hor, hd⟩
    rw [hb] at hg; cases hg; rfl
  | frameClaimed t rest r f hq ht hf hor hd =>
    have hnd := hs.1
    rw [hq] at hnd
    have hw : r.waits = true := by
      have := (hs.2.1 t).1 (by simp [hq])
      simpa [ht] using this
    have hopen := Request.isOpen_of_waits hw
    obtain ⟨hsound, hact, -⟩ := hs.entry ht
    obtain ⟨hatt, href, -⟩ := (r.sound_iff _).1 hsound
    refine hs.set rfl rfl rfl rfl hnd.of_cons (fun v hv => ?_) ?_ fun q hq' => ?_
    · simp [hq, hv]
    · simpa [Request.waits] using (List.nodup_cons.1 hnd).1
    · cases hq'
      exact ⟨(Request.sound_iff _ _).2 ⟨fun _ => hatt hopen, fun e => ⟨rfl, (href e).2⟩, fun k hk => nomatch hk⟩,
        fun _ => hact hopen, fun _ => ⟨f, hf, hor, hd⟩⟩
  | _ => exact hs

/-! ### Refresh marks -/

/-- What RefreshesSound reads of an entry: the page and the owner of a REFRESH. -/
def refreshKey (e : Option Request) : Option (PageNo × Station) :=
  e.bind fun r => if r.isRefresh then some (r.page, r.owner) else none

theorem refreshKey_eq_some {e : Option Request} {p : PageNo} {x : Station} :
    refreshKey e = some (p, x) ↔ ∃ r, e = some r ∧ r.isRefresh = true ∧ r.page = p ∧ r.owner = x := by
  cases e with
  | none => simp [refreshKey]
  | some r => cases h : r.isRefresh <;> simp [refreshKey, h]

/-- RefreshesSound in terms of the keys of the entries: the marks PENDING are those of the pages of REFRESH entries, no page has
two of them, and each goes to the page's owner. -/
theorem refreshesSound_iff (s : State) :
    RefreshesSound s ↔
      (∀ p : PageNo, (s.variant p).mark = .pending ↔ ∃ (u : Tag) (x : Station), refreshKey s.table[u] = some (p, x)) ∧
        (∀ (u v : Tag) (p : PageNo) (x y : Station), refreshKey s.table[u] = some (p, x) →
          refreshKey s.table[v] = some (p, y) → u = v) ∧
        ∀ (u : Tag) (p : PageNo) (x : Station), refreshKey s.table[u] = some (p, x) → (s.variant p).peerOwner = some x := by
  have hkey : ∀ (u : Tag) (p : PageNo), s.refreshOf u = some p ↔ ∃ x, refreshKey s.table[u] = some (p, x) := fun u p => by
    unfold State.refreshOf refreshKey
    cases s.table[u] with
    | none => simp
    | some r => cases h : r.isRefresh <;> simp [h]
  refine and_congr (forall_congr' fun p => ?_) (and_congr ⟨fun h u v p x y hu hv => ?_, fun h u v hne heq => ?_⟩
    ⟨fun h u p x hu => ?_, fun h u r hu hr => ?_⟩)
  · exact iff_congr Iff.rfl (exists_congr fun u => hkey u p)
  · have hu' := (hkey u p).2 ⟨x, hu⟩
    exact h u v (by simp [hu']) (hu'.trans ((hkey v p).2 ⟨y, hv⟩).symm)
  · obtain ⟨p, hp⟩ := Option.ne_none_iff_exists'.1 hne
    obtain ⟨x, hx⟩ := (hkey u p).1 hp
    obtain ⟨y, hy⟩ := (hkey v p).1 (heq.symm.trans hp)
    exact h u v p x y hx hy
  · obtain ⟨r, hr, href, rfl, rfl⟩ := refreshKey_eq_some.1 hu
    exact h u r hr href
  · exact h u r.page r.owner (refreshKey_eq_some.2 ⟨r, hu, hr, rfl, rfl⟩)

/-- The same keys and, on every page, the same PENDING marks and owners. -/
theorem RefreshesSound.congr {s t : State} (h : RefreshesSound s)
    (hm : ∀ p, (t.variant p).mark = .pending ↔ (s.variant p).mark = .pending)
    (ho : ∀ p, (t.variant p).peerOwner = (s.variant p).peerOwner)
    (hk : ∀ u : Tag, refreshKey t.table[u] = refreshKey s.table[u]) : RefreshesSound t := by
  rw [refreshesSound_iff] at h ⊢
  simpa only [hm, ho, hk] using h

/-- What the soundness of the REFRESH entries reads: the pages and the request table. -/
theorem RefreshesSound.of_fields {s t : State} (h : RefreshesSound s) (hp : t.pages = s.pages) (ht : t.table = s.table) :
    RefreshesSound t := by
  unfold RefreshesSound State.refreshOf State.variant at h ⊢
  rw [hp, ht]
  exact h

/-- No REFRESH entry and no PENDING mark. -/
theorem RefreshesSound.of_free {t : State} (hm : ∀ p, (t.variant p).mark ≠ .pending)
    (hk : ∀ u : Tag, refreshKey t.table[u] = none) : RefreshesSound t := by
  have hno : ∀ (u : Tag) (p : PageNo) (x : Station), refreshKey t.table[u] ≠ some (p, x) := fun u p x => by
    rw [hk u]; exact nofun
  rw [refreshesSound_iff]
  exact ⟨fun p => ⟨fun e => absurd e (hm p), fun ⟨u, x, hu⟩ => absurd hu (hno u p x)⟩,
    fun u v p x y hu => absurd hu (hno u p x), fun u p x hu => absurd hu (hno u p x)⟩

/-- REFRESH entries are open, so with no open entry there is none, and no mark is PENDING. -/
theorem RefreshesSound.none_of_closed {s : State} (h : RefreshesSound s) (hr : RequestsSound s)
    (hc : ∀ u : Tag, ∀ r ∈ s.table[u], r.isOpen = false) :
    (∀ u : Tag, refreshKey s.table[u] = none) ∧ ∀ p, (s.variant p).mark ≠ .pending := by
  have hk : ∀ u : Tag, refreshKey s.table[u] = none := fun u => by
    by_contra hne
    obtain ⟨⟨p, x⟩, hp⟩ := Option.ne_none_iff_exists'.1 hne
    obtain ⟨r, hu, href, -, -⟩ := refreshKey_eq_some.1 hp
    have hopen := (((r.sound_iff _).1 (hr.entry hu).1).2.1 href).1
    simp [hc u r hu] at hopen
  refine ⟨hk, fun p hp => ?_⟩
  obtain ⟨u, x, hu⟩ := ((refreshesSound_iff s).1 h).1 p |>.1 hp
  exact nomatch (hk u).symm.trans hu

/-- REFRESH entries removed together with the PENDING marks of their pages. -/
theorem RefreshesSound.removed {s t : State} (h : RefreshesSound s) (gone : Tag → Prop)
    (hk : ∀ u : Tag, gone u → refreshKey t.table[u] = none)
    (hk' : ∀ u : Tag, ¬ gone u → refreshKey t.table[u] = refreshKey s.table[u])
    (ho : ∀ p, (t.variant p).peerOwner = (s.variant p).peerOwner)
    (hm : ∀ p, (t.variant p).mark = .pending → (s.variant p).mark = .pending)
    (hm' : ∀ (u : Tag) (p : PageNo) (x : Station), refreshKey s.table[u] = some (p, x) →
      ((t.variant p).mark = .pending ↔ ¬ gone u)) : RefreshesSound t := by
  rw [refreshesSound_iff] at h ⊢
  obtain ⟨hmark, huniq, howner⟩ := h
  have hback : ∀ (u : Tag) (p : PageNo) (x : Station), refreshKey t.table[u] = some (p, x) →
      ¬ gone u ∧ refreshKey s.table[u] = some (p, x) := fun u p x hu => by
    have hg : ¬ gone u := fun hg => nomatch (hk u hg).symm.trans hu
    exact ⟨hg, (hk' u hg).symm.trans hu⟩
  refine ⟨fun p => ⟨fun hp => ?_, fun ⟨u, x, hu⟩ => ?_⟩, fun u v p x y hu hv => ?_, fun u p x hu => ?_⟩
  · obtain ⟨u, x, hu⟩ := (hmark p).1 (hm p hp)
    exact ⟨u, x, (hk' u ((hm' u p x hu).1 hp)).trans hu⟩
  · obtain ⟨hg, hu⟩ := hback u p x hu
    exact (hm' u p x hu).2 hg
  · exact huniq u v p x y (hback u p x hu).2 (hback v p y hv).2
  · exact (ho p).trans (howner u p x (hback u p x hu).2)

theorem PageVariant.Follows.peerOwner_eq {v v' : PageVariant} (h : v.Follows v') : v'.peerOwner = v.peerOwner := by
  rcases h with rfl | ⟨d, r, r', rfl, rfl, -, -⟩ <;> rfl

theorem PageVariant.Follows.pending {v v' : PageVariant} (h : v.Follows v') (hm : v'.mark = .pending) :
    v.mark = .pending := by
  rcases h with rfl | ⟨d, r, r', rfl, rfl, -, hp⟩
  · exact hm
  · exact hp hm

theorem restarted_mark (v : PageVariant) : v.restarted.mark = .none := by cases v <;> rfl

theorem emptied_mark (v : PageVariant) : v.emptied.mark = .none := by cases v <;> rfl

/-- A page replaced by one with the same PENDING mark and owner, and an entry by one of the same key. -/
theorem RefreshesSound.setEntry {s : State} (h : RefreshesSound s) {u : Tag} {e : Option Request}
    (he : refreshKey e = refreshKey s.table[u]) : RefreshesSound (setEntry u e s) :=
  h.congr (fun _ => Iff.rfl) (fun _ => rfl) fun v => by
    rw [setEntry_getElem]; split
    · next hv => rw [hv]; exact he
    · rfl

theorem RefreshesSound.setVariant {s : State} (h : RefreshesSound s) {p : PageNo} {v : PageVariant}
    (hm : v.mark = .pending ↔ (s.variant p).mark = .pending) (ho : v.peerOwner = (s.variant p).peerOwner) :
    RefreshesSound (setVariant p v s) := by
  refine h.congr (fun q => ?_) (fun q => ?_) fun _ => rfl <;> rw [setVariant_variant] <;> split
  · next hq => rw [hq]; exact hm
  · exact Iff.rfl
  · next hq => rw [hq]; exact ho
  · rfl

theorem refreshKey_endEntry {sel : Request → Bool} {why : LocalReason} (e : Option Request) :
    refreshKey (endEntry sel why e) =
      if e.any fun r => r.isOpen && sel r && r.isRefresh then none else refreshKey e := by
  cases e with
  | none => rfl
  | some r =>
    simp only [endEntry, Option.any_some]
    by_cases ho : (r.isOpen && sel r) = true
    · rw [if_pos ho]
      by_cases hr : r.isRefresh = true
      · rw [if_pos hr, if_pos (Bool.and_eq_true_iff.2 ⟨ho, hr⟩)]; rfl
      · rw [if_neg hr, if_neg fun e => hr (Bool.and_eq_true_iff.1 e).2]; rfl
    · rw [if_neg ho, if_neg fun e => ho (Bool.and_eq_true_iff.1 e).1]

theorem requestSent_cases (t : Tag) (s : State) :
    (requestSent t s = s ∧ ∀ r, s.table[t] = some r → r.isFramed = false) ∨
      ∃ r, s.table[t] = some r ∧ r.isFramed = true ∧
        requestSent t s =
          setEntry t (some { r with phase := .sent (Counter.load Config.ticksPerMs s.record.replyTimeout) }) s := by
  unfold requestSent
  split
  · next r hr =>
    split
    · next hf => exact .inr ⟨r, hr, hf, rfl⟩
    · next hf => exact .inl ⟨rfl, fun q hq => by cases hr.symm.trans hq; simpa using hf⟩
  · next hr => exact .inl ⟨rfl, fun q hq => nomatch hr.symm.trans hq⟩

theorem refreshKey_tableSent (o : Origin) (s : State) (u : Tag) :
    refreshKey (tableSent o s)[u] = refreshKey s.table[u] := by
  cases o with
  | request t =>
    change refreshKey (requestSent t s).table[u] = _
    rcases requestSent_cases t s with ⟨h, -⟩ | ⟨r, hr, -, h⟩ <;> rw [h]
    rw [setEntry_getElem]
    split
    · next hu => rw [hu, hr]; rfl
    · rfl
  | _ => rfl

/-- A REFRESH entry added for a page that had none, together with the page's PENDING mark. -/
theorem RefreshesSound.added {s t : State} (h : RefreshesSound s) {u : Tag} {p : PageNo} {x : Station}
    (hfree : refreshKey s.table[u] = none) (hmark : (s.variant p).mark ≠ .pending)
    (hk : ∀ v : Tag, refreshKey t.table[v] = if v = u then some (p, x) else refreshKey s.table[v])
    (hp : (t.variant p).mark = .pending ∧ (t.variant p).peerOwner = some x)
    (hq : ∀ q, q ≠ p → t.variant q = s.variant q) : RefreshesSound t := by
  rw [refreshesSound_iff] at h ⊢
  obtain ⟨hm, huniq, howner⟩ := h
  have hnot : ∀ (v : Tag) (y : Station), refreshKey s.table[v] ≠ some (p, y) := fun v y e => hmark ((hm p).2 ⟨v, y, e⟩)
  have hcases : ∀ (v : Tag) (q : PageNo) (y : Station), refreshKey t.table[v] = some (q, y) →
      (v = u ∧ q = p ∧ y = x) ∨ (v ≠ u ∧ q ≠ p ∧ refreshKey s.table[v] = some (q, y)) := fun v q y e => by
    rw [hk v] at e
    split at e
    · next hv => cases e; exact .inl ⟨hv, rfl, rfl⟩
    · next hv => exact .inr ⟨hv, fun hqp => hnot v y (hqp ▸ e), e⟩
  refine ⟨fun q => ⟨fun e => ?_, fun ⟨v, y, hv⟩ => ?_⟩, fun v w q y z hv hw => ?_, fun v q y hv => ?_⟩
  · by_cases hqp : q = p
    · exact ⟨u, x, by rw [hk u, if_pos rfl, hqp]⟩
    · rw [hq q hqp] at e
      obtain ⟨v, y, hv⟩ := (hm q).1 e
      have hvu : v ≠ u := fun e' => nomatch (e' ▸ hfree : refreshKey s.table[v] = none).symm.trans hv
      exact ⟨v, y, by rw [hk v, if_neg hvu]; exact hv⟩
  · rcases hcases v q y hv with ⟨-, rfl, -⟩ | ⟨-, hqp, hv⟩
    · exact hp.1
    · rw [hq q hqp]; exact (hm q).2 ⟨v, y, hv⟩
  · rcases hcases v q y hv with ⟨rfl, rfl, -⟩ | ⟨-, hqp, hv⟩ <;>
      rcases hcases w _ z hw with ⟨rfl, hqp', -⟩ | ⟨-, hqp', hw⟩
    · rfl
    · exact absurd rfl hqp'
    · exact absurd hqp' hqp
    · exact huniq v w q y z hv hw
  · rcases hcases v q y hv with ⟨-, rfl, rfl⟩ | ⟨-, hqp, hv⟩
    · exact hp.2
    · rw [hq q hqp]; exact howner v q y hv

theorem Move.refreshesSound {s t : State} (h : Move E s t) (hmir : MirrorsSound s) (hreq : RequestsSound s)
    (hs : RefreshesSound s) : RefreshesSound t := by
  have hcl : s.station ≠ .active → (∀ u : Tag, refreshKey s.table[u] = none) ∧ ∀ p, (s.variant p).mark ≠ .pending :=
    fun e => hs.none_of_closed hreq (hreq.closed_of_not_active e)
  cases h with
  | setPage p v hst hv =>
    obtain ⟨hk, hm⟩ := hcl (by simp [hst])
    refine .of_free (fun q => ?_) hk
    exact forall_setVariant (P := fun v => v.mark ≠ .pending) hm (by rw [← hv, restarted_mark]; simp) q
  | spanWidened p d r r' hv => exact hs.setVariant (by rw [hv]; exact Iff.rfl) (by rw [hv]; rfl)
  | published p x rest d r v hq hv => exact hs.setVariant (s := s) (by rw [hv]; exact Iff.rfl) (by rw [hv]; rfl)
  | mirrorChanged p d r r' hv hok => exact hs.setVariant (by rw [hv]; exact (hok (hv ▸ hmir p)).2) (by rw [hv]; rfl)
  | hostClaimed t kind x p o n hst ht hk =>
    refine hs.setEntry (s := s) ?_
    rw [ht]
    cases kind <;> simp_all [refreshKey, Request.isRefresh]
  | refreshClaimed t p d r hst ht hv hm =>
    refine hs.added (u := t) (p := p) (x := d.owner) (by rw [ht]; rfl) (by simp [hv, PageVariant.mark, hm])
      (fun v => ?_) ?_ fun q hq => ?_
    · refine (congrArg refreshKey (setEntry_getElem t v _ s)).trans ?_
      split <;> rfl
    · rw [setVariant_variant_same]; exact ⟨rfl, rfl⟩
    · exact (setVariant_variant p q _ _).trans (if_neg hq)
  | collected t r ht ho hr =>
    refine hs.setEntry ?_
    simp [ht, refreshKey, hr]
  | requestEnded t r k phase ht hp hr =>
    refine hs.setEntry ?_
    rw [ht]; rfl
  | requestRetried t r k ht => exact hs.setEntry (s := s) (by rw [ht]; rfl)
  | frameClaimed t rest r f hq ht => exact hs.setEntry (s := s) (by rw [ht]; rfl)
  | refreshEnded t r k v ht hp hr hv hm =>
    obtain ⟨hmark, huniq, -⟩ := (refreshesSound_iff s).1 hs
    have hvar : ∀ p, (Machine.setEntry t none (Machine.setVariant r.page v s)).variant p =
        if p = r.page then v else s.variant p := fun p => setVariant_variant r.page p v s
    have hkey : refreshKey s.table[t] = some (r.page, r.owner) := refreshKey_eq_some.2 ⟨r, ht, hr, rfl, rfl⟩
    refine hs.removed (· = t) (fun u hu => ?_) (fun u hu => ?_) (fun p => ?_) (fun p hp => ?_) fun u p x hu => ?_
    · rw [setEntry_getElem, if_pos hu]; rfl
    · rw [setEntry_getElem, if_neg hu]; rfl
    · rw [hvar]; split
      · next e => rw [e]; exact hv.peerOwner_eq
      · rfl
    · rw [hvar] at hp; split at hp
      · exact absurd hp hm
      · exact hp
    · rw [hvar]; split
      · next e =>
        have hut : u = t := huniq u t p x r.owner hu (e ▸ hkey)
        simp [hm, hut]
      · next e =>
        have hut : u ≠ t := fun hut => e (by
          rw [hut, hkey] at hu
          exact (Prod.mk.inj (Option.some.inj hu)).1.symm)
        exact iff_of_true ((hmark p).2 ⟨u, x, hu⟩) hut
  | ticked pages channels table peers hp hc ht =>
    have hv : ∀ p : PageNo, pages[p].variant = (s.variant p).tick := fun p => congrArg Page.variant (hp p)
    refine hs.congr (fun p => ?_) (fun p => ?_) fun u => ?_
    · exact iff_of_eq (congrArg (· = _) ((congrArg _ (hv p)).trans (by cases s.variant p <;> rfl)))
    · exact (congrArg _ (hv p)).trans (by cases s.variant p <;> rfl)
    · simp only [ht]
      cases s.table[u] with
      | none => rfl
      | some r => simp only [Option.map_some, Request.tick]; split <;> rfl
  | requestsEnded sel why drop pages q filter hdrop hpages =>
    refine hs.removed (fun u => (s.table[u].any fun r => r.isOpen && sel r && r.isRefresh) = true)
      (fun u hu => ?_) (fun u hu => ?_) (fun p => ?_) (fun p hp => ?_) fun u p x hu => ?_
    · exact (congrArg refreshKey (mapTable_getElem _ s.table u.val u.isLt)).trans
        ((refreshKey_endEntry s.table[u]).trans (if_pos hu))
    · exact (congrArg refreshKey (mapTable_getElem _ s.table u.val u.isLt)).trans
        ((refreshKey_endEntry s.table[u]).trans (if_neg hu))
    · exact (hpages.variant p).peerOwner_eq
    · exact (hpages.variant p).pending hp
    · obtain ⟨r, hr, href, rfl, rfl⟩ := refreshKey_eq_some.1 hu
      have hopen := (((r.sound_iff _).1 (hreq.entry hr).1).2.1 href).1
      have hpend : (s.variant r.page).mark = .pending := ((refreshesSound_iff s).1 hs).1 _ |>.2 ⟨u, r.owner, hu⟩
      refine (hpages.mark u r hr href hopen (((refreshesSound_iff s).1 hs).2.2 u _ _ hu) hpend).trans ?_
      simp [hr, hopen, href]
  | toSetup hst =>
    refine .of_free (fun p => ?_) (hcl hst).1
    rw [enterSetup_variant, restarted_mark]; simp
  | softReset =>
    refine .of_free (fun p => ?_) fun u => by simp [refreshKey]
    refine ne_of_eq_of_ne (congrArg PageVariant.mark (enterSetup_variant s p)) ?_
    rw [restarted_mark]; simp
  | toJoining cause hst =>
    refine .of_free (fun p => ?_) fun u => ?_
    · rw [enterJoining_variant, emptied_mark]; simp
    · rw [show (enterJoining cause s).table = s.table by simp [enterJoining]]
      exact (hcl (by rcases hst with e | e <;> simp [e])).1 u
  | hardwareReset => exact .of_free (fun p => by rw [reset_variant]; simp [PageVariant.mark]) fun u => by simp [State.reset, refreshKey]
  | frameSent f ht hf => exact hs.congr (fun _ => Iff.rfl) (fun _ => rfl) fun u => refreshKey_tableSent f.origin s u
  | _ => exact hs.of_fields rfl rfl

end Sys2Proof.Machine
end

section
/-! PROOF. Every row of the table, and the clock, is a chain of moves. -/

namespace Sys2Proof.Machine

/-- A chain of moves with the effects that `E` allows. -/
abbrev Moves (E : Effect → Prop) : State → State → Prop := Relation.ReflTransGen (Move E)

variable {E : Effect → Prop}

/-! ### Chains of the shared operations -/

theorem Moves.outside {s t : State}
    (h : t = { s with
      refclk := t.refclk, configError := t.configError, mutedReason := t.mutedReason, receiver := t.receiver
      windowOpen := t.windowOpen, response := t.response }) : Moves E s t := by
  rw [h]; exact .single (.outside ..)

theorem respond_moves (st : Status) (bytes : List Byte) (s : State) : Moves E s (respond st bytes s) := Moves.outside rfl

theorem setFlag_moves {e : Event} (he : E (.flag e)) (hne : e ≠ .requestDone) (s : State) :
    Moves E s (setFlag e s) := .single (.flagSet e he hne)

theorem advance_moves {n : CounterName} (hn : n ≠ .notifyLost) (s : State) : Moves E s (advance n s) := by
  cases n with
  | notifyLost => exact absurd rfl hn
  | _ => exact .single (.counted _ (Nat.le_refl _))

/-- A chain and then a response. -/
theorem Moves.respond {s t : State} (h : Moves E s t) (st : Status) (bytes : List Byte) : Moves E s (respond st bytes t) :=
  h.trans (respond_moves st bytes t)

theorem goodEnd_moves {s : State} (hs : s.station ≠ .setup) (view : Option Station) (window : Bool) :
    Moves E s (goodEnd view window s) :=
  (Relation.ReflTransGen.single (.lineTaken view (some 0) none fun _ => hs)).trans (Moves.outside rfl)

theorem foundBroken_moves (quiet : Nat) (s : State) : Moves E s (foundBroken quiet s) :=
  (Relation.ReflTransGen.single
    (.bitsCounted s.transmitter none (s.listen.map fun _ => quiet) Iff.rfl (fun _ => rfl) fun h => by simp [h])).trans
    (Moves.outside rfl)

theorem notifyIf_moves (he : E .notify) {s : State} (hs : s.station ≠ .setup) (watch : Bool) (p : PageNo) :
    Moves E s (notifyIf watch p s) := by
  unfold notifyIf; split
  · rcases notifyAppend_cases p s with ⟨-, h⟩ | ⟨-, hn, h⟩ | ⟨hp, hn, h⟩ <;> rw [h]
    · exact .single (.notifyFull hn he)
    · exact .single (.notified p hs hp hn he)
  · exact .refl

theorem enqueue_moves {s : State} {p : PageNo} {x : Extent} (hx : x = .span → (s.variant p).hasSpan = true) :
    Moves E s (enqueue x p s) := by
  unfold enqueue; split
  · next h => exact .single (.queued p x h.1 h.2 hx)
  · exact .refl

/-- Queueing chosen pages, each with a span if the extent is SPAN. -/
theorem enqueueAll_moves {s : State} {sel : PageNo → Bool} {x : Extent}
    (hx : x = .span → ∀ p, sel p = true → (s.variant p).hasSpan = true) : Moves E s (enqueueAll sel x s) := by
  have hfold : ∀ (l : List PageNo) (u : State), u.pages = s.pages →
      Moves E u (l.foldl (fun s p => if sel p then enqueue x p s else s) u) := by
    intro l
    induction l with
    | nil => exact fun u _ => .refl
    | cons p l ih =>
      intro u hu
      rw [List.foldl_cons]
      split
      · next hp =>
        have hvar : u.variant p = s.variant p := congrArg (fun v : Vector Page 64 => v[p].variant) hu
        refine (enqueue_moves fun e => hvar ▸ hx e p hp).trans (ih _ ?_)
        rw [enqueue_only]; exact hu
      · exact ih u hu
  exact hfold _ s rfl

theorem publishAll_moves (s : State) : Moves E s (publishAll s) := enqueueAll_moves fun e => nomatch e

theorem signalChannel_moves {s : State} (hs : s.station = .active) (c : ChannelNo) : Moves E s (signalChannel c s) := by
  have hload : Moves E s (loadChannel c s) := .single (.channelLoaded c fun _ => hs)
  unfold signalChannel
  split
  · split
    · exact hload
    · exact .refl
  · exact hload
  · exact .refl

theorem policyAction_moves {s : State} {p : PageNo} {policy : Policy}
    (h : policy = .onWrite → (s.variant p).hasSpan = true) : Moves E s (policyAction p policy s) := by
  unfold policyAction
  split
  · next hs =>
    cases policy with
    | onWrite => exact enqueue_moves fun _ => h rfl
    | gather c => exact signalChannel_moves hs c
    | period c => exact .refl
    | quiet => exact .refl
  · exact .refl

/-- A write that covers low..high of one page keeps the span sound. -/
theorem spanOk_widen {d : OwnDesc} {r : OwnRun} {low high : Nat} (h : (PageVariant.own d r).spanOk = true)
    (hq : d.policy ≠ .quiet) (hl : low ≤ high) (hh : high < 64) :
    (PageVariant.own d { r with span := some (widen r.span low high) }).spanOk = true := by
  cases hsp : r.span with
  | none => simp [PageVariant.spanOk, widen, hq, hl, hh, Config.pageWords]
  | some sp =>
    simp only [PageVariant.spanOk, hsp] at h
    obtain ⟨h₁, h₂, -⟩ := of_decide_eq_true h
    have h₂ : sp.high < 64 := h₂
    have hlow : min sp.low low ≤ max sp.high high := by omega
    have hhigh : max sp.high high < 64 := by omega
    exact decide_eq_true ⟨hlow, hhigh, hq⟩

theorem storeWrite_moves (he : E .words) {p : PageNo} {o : Nat} {ws : List Word} (hw : 1 ≤ ws.length) (ho : o + ws.length ≤ 64)
    (s : State) : Moves E s (storeWrite p o ws s) := by
  unfold storeWrite
  split
  · next d r hv =>
    have hput : Moves E s (putWords p o ws s) := .single (.wordsPut p o ws ho he)
    have hv' : (putWords p o ws s).variant p = .own d r := hv
    by_cases hq : d.policy = .quiet
    · simp only [hq, if_true]
      refine (hput.tail (.spanWidened p d r r hv' id id)).trans (policyAction_moves fun e => nomatch e)
    · simp only [hq, if_false]
      refine (hput.tail (.spanWidened p d r _ hv' (fun h => spanOk_widen h hq (by omega) (by omega)) fun _ => rfl)).trans
        (policyAction_moves fun _ => ?_)
      rw [setVariant_variant_same]; rfl
  · exact .refl

/-! ### Chains of the request unit -/

theorem lowestFree_eq_some {table : Vector (Option Request) 16} {t : Tag} (h : lowestFree table = some t) :
    table[t] = none := by
  simpa using List.find?_some h

theorem hostClaim_moves (he : E .host) {kind : RequestKind} (hk : kind ≠ .refresh) (x : Station) (a : Access) (s : State) :
    Moves E s (hostClaim kind x a s) := by
  unfold hostClaim
  split
  · exact respond_moves ..
  · next hs =>
    split
    · exact respond_moves ..
    · split
      · next t ht =>
        exact .respond (.single (.hostClaimed t kind x a.page a.offset a.count (not_not.1 hs) (lowestFree_eq_some ht) hk he)) ..
      · exact respond_moves ..

theorem claimPage_moves {s : State} (hs : s.station = .active) (p : PageNo) : Moves E s (claimPage p s) := by
  unfold claimPage
  split
  · next d r hv =>
    split
    · next hm =>
      split
      · next t ht => exact .single (.refreshClaimed t p d r hs (lowestFree_eq_some ht) hv hm.1)
      · exact .refl
    · exact .refl
  · exact .refl

theorem claimPage_station (p : PageNo) (s : State) : (claimPage p s).station = s.station := by
  rw [claimPage_only]

theorem claimRefreshes_moves (s : State) : Moves E s (claimRefreshes s) := by
  unfold claimRefreshes
  split
  · next hs =>
    have hfold : ∀ (l : List PageNo) (u : State), u.station = .active → Moves E u (l.foldl (fun s p => claimPage p s) u) := by
      intro l
      induction l with
      | nil => exact fun u _ => .refl
      | cons p l ih =>
        intro u hu
        exact (claimPage_moves hu p).trans (ih _ ((claimPage_station p u).trans hu))
    exact hfold _ s hs
  · exact .refl

/-- The discard of the request frames that `endRequests` ends. -/
def endsFrame (s : State) (sel : Request → Bool) : Origin → Bool
  | .request t => s.framedHit sel t
  | _ => false

theorem endRequests_buffer_eq (sel : Request → Bool) (why : LocalReason) (s : State) :
    (endRequests sel why s).buffer = discarded (endsFrame s sel) s.buffer := by
  have hdrop : (fun o : Origin => match o with | .request t => s.framedHit sel t | _ => false) = endsFrame s sel := by
    funext o; cases o <;> rfl
  have hbuf : (discardFrame (fun o => match o with | .request t => s.framedHit sel t | _ => false) s).buffer =
      discarded (endsFrame s sel) s.buffer := by
    rw [hdrop, discardFrame_eq]
  unfold endRequests
  split
  · exact (setFlag_buffer ..).trans hbuf
  · exact hbuf

/-- Every field after requests have been ended from outside. -/
theorem endRequests_eq (sel : Request → Bool) (why : LocalReason) (s : State) :
    endRequests sel why s = { s with
      table := mapTable (fun _ e => endEntry sel why e) s.table
      sendOrder := s.sendOrder.filter fun t => !s.openHit sel t
      buffer := discarded (endsFrame s sel) s.buffer
      flags := if (List.finRange 16).any (fun t => s.hostHit sel t) then s.flags ||| Event.requestDone.byte else s.flags } := by
  rw [endRequests_only, endRequests_buffer_eq, endRequests_flags]

theorem discarded_none (b : Option TxFrame) : discarded (fun _ => false) b = b := by
  cases b <;> rfl

theorem discarded_discarded (d₁ d₂ : Origin → Bool) (b : Option TxFrame) :
    discarded d₂ (discarded d₁ b) = discarded (fun o => d₁ o || d₂ o) b := by
  cases b with
  | none => rfl
  | some f =>
    cases h₁ : d₁ f.origin <;> cases h₂ : d₂ f.origin <;> cases hf : f.driven <;> simp [discarded, h₁, h₂, hf]

/-- Ending requests from outside, after a change of pages, publish queue and filter and the discard of other frames. -/
theorem endRequests_moves (he : E (.flag .requestDone)) {s : State} {sel : Request → Bool} (why : LocalReason) {drop : Origin → Bool}
    {pages : Vector Page 64} {queue : List (PageNo × Extent)} {filter : List FilterRecord}
    (hdrop : ∀ t : Tag, drop (.request t) = false) (hpages : PagesAfterEnd sel s pages)
    (hq : queue.Sublist s.publishQueue) (hqd : ∀ e ∈ queue, pages[e.1].disputed = s.disputed e.1)
    (hf : filter.Sublist s.filter)
    (hd : E (.flag .dispute) ∨ ∀ p : PageNo, pages[p].disputed = true → s.disputed p = true) :
    Moves E s (endRequests sel why
      { s with pages := pages, publishQueue := queue, filter := filter, buffer := discarded drop s.buffer }) := by
  rw [endRequests_eq, discarded_discarded]
  refine .single (.requestsEnded sel why _ pages queue filter (fun t ht => ?_) hpages hq hqd hf he hd)
  rw [hdrop t, Bool.false_or] at ht
  exact ht

theorem endRequests_mapVariants_moves (he : E (.flag .requestDone)) {s : State} {sel : Request → Bool} (why : LocalReason)
    {f : PageNo → PageVariant → PageVariant} (hpages : PagesAfterEnd sel s (mapVariants f s).pages) :
    Moves E s (endRequests sel why (mapVariants f s)) := by
  have h := endRequests_moves he (s := s) why (drop := fun _ => false) (fun _ => rfl) hpages (List.Sublist.refl _)
    (fun e _ => mapVariants_disputed f s e.1) (List.Sublist.refl s.filter)
    (.inr fun p hp => (mapVariants_disputed f s p).symm.trans hp)
  rw [discarded_none] at h
  exact h

theorem mapVariants_only (f : PageNo → PageVariant → PageVariant) (s : State) :
    mapVariants f s = { s with pages := (mapVariants f s).pages } := rfl

theorem flagDisputed_only (sel : PageNo → Bool) (s : State) :
    flagDisputed sel s = { s with
      pages := (flagDisputed sel s).pages, publishQueue := s.publishQueue.filter fun e => !sel e.1 } := rfl

/-- Pages after a change of their mirrors alone, with no other mark than those of ended requests lost. -/
theorem pagesAfterEnd_of_mirrors {s : State} {sel : Request → Bool} {f : PageNo → PageVariant → PageVariant}
    (hf : ∀ p, (s.variant p).Follows (f p (s.variant p)))
    (hstart : ∀ p, (s.variant p).mirrorAtStart = true → (f p (s.variant p)).mirrorAtStart = true)
    (hmark : ∀ (u : Tag) (r : Request), s.table[u] = some r → r.isRefresh = true →
      (s.variant r.page).peerOwner = some r.owner → (s.variant r.page).mark = .pending →
      ((f r.page (s.variant r.page)).mark = .pending ↔ sel r = false)) :
    PagesAfterEnd sel s (mapVariants f s).pages where
  variant p := by
    have h := mapVariants_variant f s p
    unfold State.variant at h
    rw [h]; exact hf p
  start p hp := (congrArg PageVariant.mirrorAtStart (mapVariants_variant f s p)).trans (hstart p hp)
  disputed p hp := .inl ((mapVariants_disputed f s p).symm.trans hp)
  mark u r hu hr _ ho hm :=
    (iff_of_eq (congrArg (fun v : PageVariant => v.mark = .pending) (mapVariants_variant f s r.page))).trans
      (hmark u r hu hr ho hm)

/-- A mirror whose state can only go to STALE with its age counter stopped, and whose mark can only be cleared, stays sound. -/
theorem follows_stale {d : MirrorDesc} {r : MirrorRun} (stale : Bool)
    (hs : stale = true → r.state = .fresh ∨ r.state = .gapped) {mark : RefreshMark} (hm : mark = r.mark ∨ mark = .none) :
    (PageVariant.mirror d r).Follows
      (.mirror d { r with state := if stale then .stale else r.state, age := if stale then none else r.age, mark := mark }) := by
  refine .inr ⟨d, r, _, rfl, rfl, fun h => ?_, fun e => ?_⟩
  · obtain ⟨hlast, hmark, hage, hlimit, hwithin⟩ := (mirrorOk_iff d r).1 h
    have hne : r.state = .empty → mark = .none := fun e => by
      rcases hm with rfl | rfl
      · exact hmark e
      · rfl
    cases stale
    · exact (mirrorOk_iff _ _).2 ⟨hlast, hne, hage, hlimit, hwithin⟩
    · have hst := hs rfl
      refine (mirrorOk_iff _ _).2 ⟨?_, nofun, fun _ => rfl, fun _ => rfl, rfl⟩
      have : r.state ≠ .empty := by rcases hst with e | e <;> simp [e]
      simpa [this] using hlast
  · rcases hm with rfl | rfl
    · exact e
    · cases e

theorem ownerLost_moves (he : E (.flag .requestDone)) (x : Station) (s : State) : Moves E s (ownerLost x s) := by
  refine endRequests_mapVariants_moves he .ownerLost (pagesAfterEnd_of_mirrors (fun p => ?_) (fun p hp => ?_) ?_)
  · cases hv : s.variant p with
    | mirror d r =>
      simp only
      split
      · have h := follows_stale (d := d) (r := r) (decide (r.state = .fresh ∨ r.state = .gapped)) (by simp)
          (mark := .none) (.inr rfl)
        by_cases hst : r.state = .fresh ∨ r.state = .gapped
        · simpa [MirrorRun.ownerLost, hst] using h
        · simpa [MirrorRun.ownerLost, hst] using h
      · exact .inl rfl
    | _ => exact .inl rfl
  · cases hv : s.variant p with
    | mirror d r =>
      rw [hv] at hp
      simp only [PageVariant.mirrorAtStart, beq_iff_eq] at hp
      subst hp
      simp only
      split <;> rfl
    | _ => rfl
  · intro u r hu hr ho hm
    cases hv : s.variant r.page with
    | mirror d m =>
      rw [hv] at ho hm
      simp only [PageVariant.peerOwner, Option.some.injEq] at ho
      simp only [PageVariant.mark] at hm
      simp only
      split
      · next h =>
        have hno : (m.ownerLost).mark = .none := by unfold MirrorRun.ownerLost; split <;> rfl
        simp [PageVariant.mark, hno, ← ho, h]
      · next h => simp [PageVariant.mark, hm, ← ho, h]
    | _ => rw [hv] at hm; cases hm

theorem ownerRejoined_moves (he : E (.flag .requestDone)) (x : Station) (s : State) : Moves E s (ownerRejoined x s) := by
  have hpages : PagesAfterEnd (fun r => r.isRefresh && r.owner = x) s
      (mapVariants (fun _ v => match v with
        | .mirror d r => if d.owner = x then .mirror d MirrorRun.start else .mirror d r
        | v => v) s).pages := by
    refine pagesAfterEnd_of_mirrors (fun p => ?_) (fun p hp => ?_) ?_
    · cases hv : s.variant p with
      | mirror d r =>
        simp only
        split
        · exact .inr ⟨d, r, _, rfl, rfl, fun _ => mirrorOk_start d, nofun⟩
        · exact .inl rfl
      | _ => exact .inl rfl
    · cases hv : s.variant p with
      | mirror d r =>
        simp only
        split
        · rfl
        · exact hv ▸ hp
      | _ => rfl
    · intro u r hu hr ho hm
      cases hv : s.variant r.page with
      | mirror d m =>
        rw [hv] at ho hm
        simp only [PageVariant.peerOwner, Option.some.injEq] at ho
        simp only [PageVariant.mark] at hm
        simp only
        split
        · next h => simp [PageVariant.mark, MirrorRun.start, hr, ← ho, h]
        · next h => simp [PageVariant.mark, hm, hr, ← ho, h]
      | _ => rw [hv] at hm; cases hm
  have h := endRequests_moves he (s := s) .ownerLost (drop := fun _ => false) (fun _ => rfl) hpages (List.Sublist.refl _)
    (fun e _ => mapVariants_disputed _ s e.1) (List.filter_sublist (p := fun f => decide (f.writer ≠ x)) (l := s.filter))
    (.inr fun p hp => (mapVariants_disputed _ s p).symm.trans hp)
  rw [discarded_none] at h
  unfold ownerRejoined
  rw [mapVariants_only]
  generalize (mapVariants _ s).pages = pages at h ⊢
  simp only [endRequests_eq] at h ⊢
  exact h

/-- Pages becoming DISPUTED outside SETUP, none of them NONE. -/
theorem becomeDisputed_moves (he : E (.flag .requestDone)) (hd : E (.flag .dispute)) {s : State} (hs : s.station ≠ .setup) {sel : PageNo → Bool}
    (hsel : ∀ p, sel p = true → s.variant p ≠ .none) : Moves E s (becomeDisputed sel s) := by
  have hpage : ∀ p : PageNo, (flagDisputed sel s).pages[p] =
      if sel p then { variant := (s.variant p).withMark .none, disputed := true } else s.pages[p] := fun p => by
    simp [flagDisputed, State.variant]
  have hvar : ∀ p : PageNo, (flagDisputed sel s).pages[p].variant =
      if sel p then (s.variant p).withMark .none else s.variant p := fun p => by
    rw [hpage]; split <;> rfl
  have hdis : ∀ p : PageNo, (flagDisputed sel s).pages[p].disputed = (sel p || s.disputed p) := fun p => by
    rw [hpage]; split <;> simp_all [State.disputed]
  have hpages : PagesAfterEnd (fun r => r.isRefresh && sel r.page) s (flagDisputed sel s).pages := by
    refine ⟨fun p => ?_, fun p hp => ?_, fun p hp => ?_, fun u r hu hr _ ho hm => ?_⟩
    · rw [hvar]; split
      · cases hv : s.variant p with
        | mirror d r => simpa [PageVariant.withMark] using follows_stale (d := d) (r := r) false nofun (.inr rfl)
        | _ => exact .inl rfl
      · exact .inl rfl
    · rw [hvar]; split
      · cases hv : s.variant p with
        | mirror d r =>
          rw [hv] at hp
          simp only [PageVariant.mirrorAtStart, beq_iff_eq] at hp
          subst hp; rfl
        | _ => rfl
      · exact hp
    · rw [hdis, Bool.or_eq_true] at hp
      exact hp.symm.imp_right fun h => ⟨hs, hsel p h⟩
    · rw [hvar]
      cases hp : sel r.page
      · simp [hm, hr]
      · cases hv : s.variant r.page <;> simp [PageVariant.withMark, PageVariant.mark, hr]
  have hqd : ∀ e ∈ s.publishQueue.filter (fun e => !sel e.1),
      (flagDisputed sel s).pages[e.1].disputed = s.disputed e.1 := fun e he => by
    have hsel : sel e.1 = false := by simpa using (List.mem_filter.1 he).2
    rw [hdis, hsel, Bool.false_or]
  rw [becomeDisputed_eq, discardFrame_eq, flagDisputed_only]
  generalize (flagDisputed sel s).pages = pages at hpages hqd
  exact endRequests_moves he .ownerLost (fun _ => rfl) hpages List.filter_sublist hqd (List.Sublist.refl _) (.inl hd)

/-- PENDING marks dropped and every request ended. -/
theorem endAll_moves (he : E (.flag .requestDone)) (why : LocalReason) (s : State) : Moves E s (endRequests (fun _ => true) why (dropPending s)) := by
  refine endRequests_mapVariants_moves he why (pagesAfterEnd_of_mirrors (fun p => ?_) (fun p hp => ?_) ?_)
  · split
    · cases s.variant p with
      | mirror d r => exact follows_stale (d := d) (r := r) false nofun (.inr rfl)
      | _ => exact .inl rfl
    · exact .inl rfl
  · split
    · cases hv : s.variant p with
      | mirror d r =>
        rw [hv] at hp
        simp only [PageVariant.mirrorAtStart, beq_iff_eq] at hp
        subst hp; rfl
      | _ => rfl
    · exact hp
  · intro u r hu hr ho hm
    rw [if_pos hm]
    cases s.variant r.page <;> simp [PageVariant.withMark, PageVariant.mark]

theorem endAll_closed (why : LocalReason) (s : State) (u : Tag) :
    ∀ r ∈ (endRequests (fun _ => true) why s).table[u], r.isOpen = false := by
  intro r hr
  rw [endRequests_eq] at hr
  simp only [mapTable_getElem, Fin.getElem_fin] at hr
  rcases endEntry_eq_some (Option.mem_def.1 hr) with ⟨-, h⟩ | ⟨r', -, -, -, -, rfl⟩
  · simpa using h
  · rfl

theorem enterMuted_moves (hl : E .lifecycle) (hm : E (.flag .muted)) (he : E (.flag .requestDone)) {s : State} (ht : s.transmitter = .idle) (why : MutedReason) : Moves E s (enterMuted why s) := by
  have hend := endAll_moves he .muted s
  have hidle : (endRequests (fun _ => true) .muted (dropPending s)).transmitter = .idle := by
    rw [endRequests_eq]; simpa [dropPending] using ht
  have hclosed := endAll_closed .muted (dropPending s)
  unfold enterMuted
  generalize endRequests (fun _ => true) .muted (dropPending s) = u at hend hidle hclosed
  simp only [discardFrame_eq]
  have hmuted := hend.tail (.toMuted hidle hclosed hl)
  exact (hmuted.tail (.outside _ _ why _ _ _)).trans (setFlag_moves hm nofun _)

theorem enterLeaving_moves (hl : E .lifecycle) (he : E (.flag .requestDone)) {s : State} (hs : s.station = .active) : Moves E s (enterLeaving s) := by
  have hend := endAll_moves he .cancelled s
  have hact : (endRequests (fun _ => true) .cancelled (dropPending s)).station = .active := by
    rw [endRequests_eq]; simpa [dropPending] using hs
  have hclosed := endAll_closed .cancelled (dropPending s)
  unfold enterLeaving
  generalize endRequests (fun _ => true) .cancelled (dropPending s) = u at hend hact hclosed
  simp only [clearMarks, clearPublishQueue, idleChannels]
  exact hend.tail (.toLeaving hact hclosed hl)

end Sys2Proof.Machine
end

section
namespace Sys2Proof.Machine

variable {E : Effect → Prop}

/-! ### Chains of the frames received -/

/-- The effects of the end of a good frame: a presence renewed, and the entry to MUTED where the frame carries the own number. -/
structure FrameEffects (E : Effect → Prop) : Prop where
  lifecycle : E .lifecycle
  muted : E (.flag .muted)
  requestDone : E (.flag .requestDone)
  peers : E .peers
  peerChange : E (.flag .peerChange)

theorem renewPresence_moves (hp : E .peers) (hf : E (.flag .peerChange)) {s : State} {x : Station} (hs : s.station ≠ .setup) (hx : x ≠ s.record.own) :
    Moves E s (renewPresence x s) := by
  have hpeer : Moves E s (setPeer x { s.peers[x] with state := .present s.silenceLoad } s) :=
    .single (.peerRecorded x _ (fun hr _ => ⟨hs, hx, counterWithin_load (by decide) (by
      simp only [StationRecord.inRange, decide_eq_true_eq] at hr
      omega)⟩) (.inl hp))
  unfold renewPresence
  split
  · exact hpeer
  · exact hpeer.trans (setFlag_moves hf nofun _)

theorem renewPresence_station (x : Station) (s : State) : (renewPresence x s).station = s.station := by
  rw [renewPresence_only]

theorem renewPresence_record (x : Station) (s : State) : (renewPresence x s).record = s.record := by
  rw [renewPresence_only]

theorem duplicateFound_moves (hl : E .lifecycle) (hm : E (.flag .muted)) (he : E (.flag .requestDone)) {s : State} (ht : s.transmitter = .idle) : Moves E s (duplicateFound s) := by
  unfold duplicateFound
  split
  · have hreason : Moves E s { s with mutedReason := .duplicateStation } := Moves.outside rfl
    exact hreason.trans (setFlag_moves hm nofun _)
  · exact .refl
  · exact enterMuted_moves hl hm he ht _

/-- A frame row: nothing, a duplicate station, or the good end of another station's frame and then `f`. -/
theorem frameFrom_moves (hE : FrameEffects E) {x : Station} {window : Bool} {f : State → State} {s : State}
    (hf : ∀ u : State, u.station ≠ .setup → x ≠ u.record.own → Moves E u (f u)) : Moves E s (frameFrom x window f s) := by
  rcases frameFrom_cases x window f s with ⟨-, -, h⟩ | ⟨-, htwin, h⟩ | ⟨-, -, h⟩ | ⟨hx, hhears, h⟩ <;> rw [h]
  · obtain ⟨hs, ht, -⟩ := (findsTwin_iff s).1 htwin
    exact (goodEnd_moves hs _ _).trans (duplicateFound_moves hE.lifecycle hE.muted hE.requestDone (by simpa using ht))
  · obtain ⟨hs, -⟩ := (hears_iff s).1 hhears
    exact (goodEnd_moves hs _ _).trans (hf _ (by simpa using hs) (by simpa using hx))

theorem malformedEffect_moves (hE : FrameEffects E) (sender : Byte) (s : State) : Moves E s (malformedEffect sender s) := by
  unfold malformedEffect
  split
  · next x _ =>
    exact frameFrom_moves hE fun u hs hx => (advance_moves (n := .malformed) nofun u).trans
      (renewPresence_moves hE.peers hE.peerChange (by simpa using hs) (by simpa using hx))
  · split
    · next h =>
      obtain ⟨hs, -⟩ := (hears_iff s).1 h
      exact (goodEnd_moves hs _ _).trans (advance_moves (by nofun) _)
    · exact .refl

/-- What R55 makes of an UPDATE keeps the mirror sound and neither makes a mark PENDING nor takes such a mark away. -/
theorem classifyUpdate_sound {d : MirrorDesc} {r : MirrorRun} {v : Byte} {isFull : Bool} {st : MirrorState}
    {mark : RefreshMark} (h : classifyUpdate r v isFull = some (st, mark))
    (hok : (PageVariant.mirror d r).mirrorOk = true) :
    (PageVariant.mirror d { state := st, last := some v, age := ageLoad d.ageLimit, mark := mark }).mirrorOk = true ∧
      (mark = .pending ↔ r.mark = .pending) := by
  obtain ⟨hlast, hmark, -⟩ := (mirrorOk_iff d r).1 hok
  have hst : (st = .fresh ∨ st = .gapped) ∧ (mark = .pending ↔ r.mark = .pending) := by
    unfold classifyUpdate at h
    split at h
    · next he =>
      have hm := hmark he
      cases isFull <;> cases h <;> simp [hm]
    · cases h
    · simp only at h
      split at h
      · cases h
      split at h
      · cases h; simp
      split at h
      · cases h
        split <;> simp
      · cases h
        split <;> simp_all
  refine ⟨(mirrorOk_iff _ _).2 ?_, hst.2⟩
  unfold ageLoad
  have hw : counterWithin Config.ticksPerAge d.ageLimit
      (if d.ageLimit = 0 then none else some (Counter.load Config.ticksPerAge d.ageLimit)) = true := by
    split
    · rfl
    · exact counterWithin_load (by decide) (by omega)
  rcases hst.1 with rfl | rfl <;> simp [hw]

theorem applyToMirror_moves (hew : E .words) (hen : E .notify) {s : State} (hs : s.station ≠ .setup) {p : PageNo} {d : MirrorDesc} {r : MirrorRun}
    (hv : s.variant p = .mirror d r) {first : Nat} {ws : List Word} (hw : first + ws.length ≤ 64) (v : Byte)
    {st : MirrorState} {mark : RefreshMark}
    (hok : (PageVariant.mirror d r).mirrorOk = true →
      (PageVariant.mirror d { state := st, last := some v, age := ageLoad d.ageLimit, mark := mark }).mirrorOk = true ∧
        (mark = .pending ↔ r.mark = .pending)) : Moves E s (applyToMirror p d first ws v st mark s) :=
  ((Relation.ReflTransGen.single (.wordsPut p first ws hw hew)).tail (.mirrorChanged p d r _ hv hok fun _ => hs)).trans
    (notifyIf_moves hen (by simpa using hs) _ _)

/-- The UPDATE is applied to the mirror of page `p` (R54, R55). -/
def UpdateApplies (x : Station) (p : PageNo) (v first : Byte) (ws : List Word) (s : State) : Prop :=
  ∃ d r, s.disputed p = false ∧ s.variant p = .mirror d r ∧ d.owner = x ∧ first.toNat + ws.length ≤ 64 ∧
    (r.state = .empty ∨ ∃ l, r.last = some l ∧ 1 ≤ (v - l).toNat ∧ (v - l).toNat ≤ 127)

theorem newer_of_classifyUpdate {r : MirrorRun} {v : Byte} {isFull : Bool} {e : MirrorState × RefreshMark}
    (h : classifyUpdate r v isFull = some e) :
    r.state = .empty ∨ ∃ l, r.last = some l ∧ 1 ≤ (v - l).toNat ∧ (v - l).toNat ≤ 127 := by
  unfold classifyUpdate at h
  split at h
  · next he => exact .inl he
  · cases h
  · next l hl _ =>
    simp only at h
    split at h
    · cases h
    · exact .inr ⟨l, hl, by omega⟩

theorem takeUpdate_moves {s : State} (hs : s.station ≠ .setup) {x : Station} {p : PageNo} {v first : Byte}
    {ws : List Word} (hE : UpdateApplies x p v first ws s → E .words ∧ E .notify) : Moves E s (takeUpdate x p v first ws s) := by
  unfold takeUpdate
  split
  · exact advance_moves (by nofun) _
  next hw =>
  split
  · exact .refl
  split
  · exact .refl
  next hd =>
  split
  · exact .refl
  · exact advance_moves (by nofun) _
  · next d r hv =>
    split
    · next ho =>
      unfold updateMirror
      split
      · next st mark hc =>
        obtain ⟨hew, hen⟩ := hE ⟨d, r, by simpa using hd, hv, ho, by simpa [Config.pageWords] using hw,
          newer_of_classifyUpdate hc⟩
        exact applyToMirror_moves hew hen hs hv (by simpa [Config.pageWords] using hw) v fun hok => classifyUpdate_sound hc hok
      · exact advance_moves (by nofun) _
    · exact advance_moves (by nofun) _
  · split
    · exact .refl
    · exact advance_moves (by nofun) _

theorem updateFrameEffect_moves (hE : FrameEffects E) (hew : E .words) (hen : E .notify) (x : Station) (p : PageNo) (v first : Byte) (ws : List Word) (s : State) :
    Moves E s (updateFrameEffect x p v first ws s) := by
  unfold updateFrameEffect
  split
  · exact malformedEffect_moves hE _ _
  · exact frameFrom_moves hE fun u hs hx => (renewPresence_moves hE.peers hE.peerChange hs hx).trans
      (takeUpdate_moves (by rwa [renewPresence_station]) fun _ => ⟨hew, hen⟩)

theorem serve_moves {f : State → State} {s : State}
    (hf : s.station = .active → s.replyQueue.length < Config.replyQueueSize → Moves E s (f s)) : Moves E s (serve f s) := by
  unfold serve
  split
  · next hs =>
    split
    · exact advance_moves (by nofun) _
    · next hn => exact hf hs (Nat.not_le.1 hn)
  · exact .refl

theorem fetchFrameEffect_moves (hE : FrameEffects E) (x : Station) (page offset count : Byte) (t : Tag) (i : Issue) (a : Byte) (s : State) :
    Moves E s (fetchFrameEffect x page offset count t i a s) :=
  frameFrom_moves hE fun _ hs hx => (renewPresence_moves hE.peers hE.peerChange hs hx).trans
    (serve_moves fun hact hn => .single (.answerOwed _ hact hn))

theorem writeStatus_eq_done {s : State} {page offset : Byte} {n : Nat} (h : writeStatus s page offset n = .done) :
    ∃ p d r, pageOf page = some p ∧ s.disputed p = false ∧ s.variant p = .own d r ∧ d.remoteWrites = .accept ∧
      1 ≤ n ∧ n ≤ 16 ∧ offset.toNat + n ≤ 64 := by
  unfold writeStatus at h
  split at h
  · cases h
  next p hp =>
  split at h
  · cases h
  next hd =>
  split at h
  · next d r hv =>
    split at h
    · cases h
    next hn =>
    simp only [not_or, Nat.not_lt, Config.longestAccess, Config.pageWords] at hn
    split at h
    · cases h
    next hr =>
    refine ⟨p, d, r, hp, by simpa using hd, hv, ?_, by omega, hn.2.1, hn.2.2⟩
    cases hd' : d.remoteWrites
    · rfl
    · exact absurd hd' hr
  · cases h

theorem storeWrite_station (p : PageNo) (o : Nat) (ws : List Word) (s : State) :
    (storeWrite p o ws s).station = s.station := by rw [storeWrite_only]

/-- What a remote WRITE that is applied leaves to the reply queue and the filter. -/
theorem applyRemoteWrite_only (page offset : Byte) (ws : List Word) (s : State) :
    applyRemoteWrite page offset ws s =
      { s with
        memory := (applyRemoteWrite page offset ws s).memory, pages := (applyRemoteWrite page offset ws s).pages
        publishQueue := (applyRemoteWrite page offset ws s).publishQueue
        channels := (applyRemoteWrite page offset ws s).channels
        notify := (applyRemoteWrite page offset ws s).notify, flags := (applyRemoteWrite page offset ws s).flags
        counters := (applyRemoteWrite page offset ws s).counters } := by
  unfold applyRemoteWrite
  split
  · next p _ => rw [notifyIf_only, storeWrite_only]
  · rfl

theorem serveWrite_moves {x : Station} {page offset : Byte} {t : Tag} {i : Issue} {a : Byte} {ws : List Word} {s : State}
    (hE : filterFind s.filter x t i = none → writeStatus s page offset ws.length = .done → E .words ∧ E .notify) (hs : s.station = .active) (hn : s.replyQueue.length < Config.replyQueueSize) :
    Moves E s (serveWrite x page offset t i a ws s) := by
  unfold serveWrite
  split
  · exact .single (.answerOwed _ hs hn)
  next hmiss =>
  have hwritten : ∀ st : RemoteStatus, st = writeStatus s page offset ws.length →
      ∃ u : State, u = (if st = .done then applyRemoteWrite page offset ws s else s) ∧ Moves E s u ∧ u.station = .active ∧
        u.replyQueue = s.replyQueue ∧ u.filter = s.filter := by
    intro st hst
    refine ⟨_, rfl, ?_⟩
    split
    · next hdone =>
      have hdone' := hst.symm.trans hdone
      obtain ⟨hew, hen⟩ := hE hmiss hdone'
      obtain ⟨p, d, r, hp, -, -, -, hw, -, ho⟩ := writeStatus_eq_done hdone'
      refine ⟨?_, ?_⟩
      · simp only [applyRemoteWrite, hp]
        exact (storeWrite_moves hew hw ho s).trans (notifyIf_moves hen (by rw [storeWrite_station, hs]; nofun) _ _)
      · rw [applyRemoteWrite_only]
        exact ⟨hs, rfl, rfl⟩
    · exact ⟨.refl, hs, rfl, rfl⟩
  obtain ⟨u, hu, hmoves, hact, hqueue, hfilter⟩ := hwritten _ rfl
  simp only
  rw [← hu]
  refine (hmoves.tail (.filtered _ hact (hfilter ▸ hmiss))).tail (.answerOwed _ hact ?_)
  exact hqueue ▸ hn

theorem writeFrameEffect_moves (hE : FrameEffects E) (hew : E .words) (hen : E .notify) (x : Station) (page offset : Byte) (t : Tag) (i : Issue) (a : Byte) (ws : List Word)
    (s : State) : Moves E s (writeFrameEffect x page offset t i a ws s) := by
  unfold writeFrameEffect
  split
  · exact malformedEffect_moves hE _ _
  · exact frameFrom_moves hE fun _ hs hx => (renewPresence_moves hE.peers hE.peerChange hs hx).trans (serve_moves (serveWrite_moves fun _ _ => ⟨hew, hen⟩))

/-- A request that a REPLY or ACK answers is SENT, to the sender, with the issue and attempt of the frame (R79). -/
theorem answers_iff {r : Request} {x : Station} {i : Issue} {a : Byte} :
    r.answers x i a = true ↔ (∃ k, r.phase = .sent k) ∧ r.owner = x ∧ r.issue = i ∧ r.attempt = a.toNat := by
  unfold Request.answers
  cases r.phase <;> simp

theorem requestAnswered_moves (he : E (.flag .requestDone)) {s : State} {t : Tag} {r : Request} {k : Counter} (ht : s.table[t] = some r)
    (hp : r.phase = .sent k) (hr : r.isRefresh = false) (st : RemoteStatus) (data : Option (Byte × List Word)) :
    Moves E s (requestAnswered t r st data s) :=
  .single (.requestEnded t r k _ ht hp hr rfl he)

theorem readAnswered_moves (he : E (.flag .requestDone)) {s : State} {t : Tag} {r : Request} {k : Counter} (ht : s.table[t] = some r)
    (hp : r.phase = .sent k) (hr : r.isRefresh = false) (st : RemoteStatus) (v : Byte) (ws : List Word) :
    Moves E s (readAnswered t r st v ws s) := by
  unfold readAnswered
  split
  · split
    · exact requestAnswered_moves he ht hp hr _ _
    · exact advance_moves (by nofun) _
  · exact requestAnswered_moves he ht hp hr _ _

theorem setEntry_notifyIf (t : Tag) (e : Option Request) (watch : Bool) (p : PageNo) (s : State) :
    setEntry t e (notifyIf watch p s) = notifyIf watch p (setEntry t e s) := by
  have happend : setEntry t e (notifyAppend p s) = notifyAppend p (setEntry t e s) := by
    rcases notifyAppend_cases p s with ⟨hp, h⟩ | ⟨hp, hn, h⟩ | ⟨hp, hn, h⟩ <;> rw [h]
    · exact (notifyAppend_of_mem (s := setEntry t e s) hp).symm
    · exact ((if_neg (show p ∉ (setEntry t e s).notify from hp)).trans (if_pos hn)).symm
    · exact (notifyAppend_of_room (s := setEntry t e s) hp hn).symm
  cases watch
  · rfl
  · exact happend

theorem mirrorAtStart_iff (d : MirrorDesc) (r : MirrorRun) :
    (PageVariant.mirror d r).mirrorAtStart = true ↔ r = MirrorRun.start := by
  simp [PageVariant.mirrorAtStart]

/-- A refresh that fails ends in a mirror that is EMPTY or STALE without a mark. -/
theorem follows_refreshFailed (d : MirrorDesc) (r : MirrorRun) :
    (PageVariant.mirror d r).Follows
      (.mirror d { r with state := if r.state = .empty then .empty else .stale, age := none, mark := .none }) := by
  refine .inr ⟨d, r, _, rfl, rfl, fun h => ?_, nofun⟩
  obtain ⟨hlast, -⟩ := (mirrorOk_iff d r).1 h
  refine (mirrorOk_iff _ _).2 ⟨?_, fun _ => rfl, fun _ => rfl, fun _ => rfl, rfl⟩
  by_cases he : r.state = .empty
  · simpa [he] using hlast
  · simpa [he] using hlast

theorem setVariant_self (p : PageNo) (s : State) : setVariant p (s.variant p) s = s := by
  have hpages : s.pages.set p { s.pages[p] with variant := s.variant p } = s.pages := Vector.set_getElem_self p.isLt
  unfold setVariant
  rw [hpages]

/-- The end of a SENT REFRESH without usable words, whatever its page (R60, R84). -/
theorem refreshFailed_moves {s : State} {t : Tag} {r : Request} {k : Counter} (ht : s.table[t] = some r)
    (hp : r.phase = .sent k) (hr : r.isRefresh = true) : Moves E s (setEntry t none (refreshFailed r.page s)) := by
  unfold refreshFailed
  split
  · next d m hv =>
    refine .single (.refreshEnded t r k _ ht hp hr (hv ▸ follows_refreshFailed d m) (by simp [PageVariant.mark]) fun _ h => ?_)
    rw [hv, mirrorAtStart_iff] at h
    subst h; rfl
  · next hv =>
    have hnot : (s.variant r.page).mark ≠ .pending := by
      cases h : s.variant r.page with
      | mirror d m => exact absurd h (hv d m)
      | _ => simp [PageVariant.mark]
    have hself : setVariant r.page (s.variant r.page) s = s := setVariant_self r.page s
    have h := Move.refreshEnded (E := E) t r k (s.variant r.page) ht hp hr (.inl rfl) hnot fun _ h => h
    rw [hself] at h
    exact .single h

/-- A refresh reply is applied to its mirror (R59). -/
def RefreshApplies (m : MirrorRun) (st : RemoteStatus) (v : Byte) (ws : List Word) : Prop :=
  st = .done ∧ ws.length = 64 ∧ m.state ≠ .empty ∧ ∃ l, m.last = some l ∧ (v - l).toNat ≤ 127

theorem refreshAnswered_moves {s : State} (hs : s.station ≠ .setup) {t : Tag} {r : Request} {k : Counter}
    (ht : s.table[t] = some r) (hp : r.phase = .sent k) (hr : r.isRefresh = true) {d : MirrorDesc} {m : MirrorRun}
    (hv : s.variant r.page = .mirror d m) {st : RemoteStatus} {v : Byte} {ws : List Word}
    (hE : RefreshApplies m st v ws → E .words ∧ E .notify) : Moves E s (setEntry t none (refreshAnswered r.page d m st v ws s)) := by
  have hend : ∀ (u : State) (m' : MirrorRun), u.table[t] = some r → u.station ≠ .setup → u.variant r.page = .mirror d m →
      m'.mark = .none → ((PageVariant.mirror d m).mirrorOk = true → (PageVariant.mirror d m').mirrorOk = true) →
      Moves E u (setEntry t none (setVariant r.page (.mirror d m') u)) := fun u m' hut hus huv hm hok =>
    .single (.refreshEnded t r k _ hut hp hr (.inr ⟨d, m, m', huv, rfl, huv ▸ hok, fun e => nomatch hm.symm.trans e⟩)
      (by simp [PageVariant.mark, hm]) fun e => absurd e hus)
  unfold refreshAnswered
  split
  · exact refreshFailed_moves ht hp hr
  next hst =>
  split
  · exact (advance_moves (n := .malformed) nofun s).trans (refreshFailed_moves (s := advance .malformed s) ht hp hr)
  next hw =>
  split
  · exact refreshFailed_moves ht hp hr
  · exact refreshFailed_moves ht hp hr
  · next l hl hne =>
    split
    · next hv' =>
      obtain ⟨hew, hen⟩ := hE ⟨not_not.1 hst, not_not.1 hw, hne, l, hl, Nat.lt_succ_iff.1 hv'⟩
      have hws : 0 + ws.length ≤ 64 := by simp [not_not.1 hw, Config.pageWords]
      unfold applyToMirror
      rw [setEntry_notifyIf]
      refine ((Relation.ReflTransGen.single (.wordsPut r.page 0 ws hws hew)).trans
        (hend (putWords r.page 0 ws s) _ ht hs hv rfl fun _ => ?_)).trans (notifyIf_moves hen (by simpa using hs) _ _)
      refine (mirrorOk_iff _ _).2 ⟨by simp, by simp, by simp, fun e => by simp [ageLoad, e], ?_⟩
      unfold ageLoad
      split
      · rfl
      · exact counterWithin_load (by decide) (by omega)
    · refine (hend s { m with mark := .none } ht hs hv rfl fun hok => ?_).trans (advance_moves (n := .oldUpdates) nofun _)
      obtain ⟨hlast, -, hrest⟩ := (mirrorOk_iff d m).1 hok
      exact (mirrorOk_iff _ _).2 ⟨hlast, fun _ => rfl, hrest⟩

/-- A REPLY is applied to the mirror of the SENT REFRESH that it answers (R59, R79). -/
def ReplyApplies (x : Station) (t : Tag) (i : Issue) (a : Byte) (st : RemoteStatus) (page v : Byte) (ws : List Word)
    (s : State) : Prop :=
  ∃ r d m, s.table[t] = some r ∧ r.answers x i a = true ∧ page.toNat = r.page.val ∧ r.kind = .refresh ∧
    s.variant r.page = .mirror d m ∧ d.owner = x ∧ RefreshApplies m st v ws

theorem takeReply_moves (he : E (.flag .requestDone)) {s : State} (hs : s.station ≠ .setup) {x : Station} {t : Tag} {i : Issue}
    {a : Byte} {st : RemoteStatus} {page v : Byte} {ws : List Word}
    (hE : ReplyApplies x t i a st page v ws s → E .words ∧ E .notify) : Moves E s (takeReply x t i a st page v ws s) := by
  unfold takeReply
  split
  · next r ht =>
    split
    · next ha =>
      obtain ⟨hans, hpage⟩ := Bool.and_eq_true_iff.1 ha
      obtain ⟨⟨k, hp⟩, -⟩ := answers_iff.1 hans
      split
      · next hk => exact readAnswered_moves he ht hp (by simp [Request.isRefresh, hk]) _ _ _
      · exact advance_moves (by nofun) _
      · next hk =>
        split
        · next d m hv =>
          split
          · next ho =>
            exact refreshAnswered_moves hs ht hp (by simp [Request.isRefresh, hk]) hv fun happ =>
              hE ⟨r, d, m, ht, hans, of_decide_eq_true hpage, hk, hv, ho, happ⟩
          · exact advance_moves (by nofun) _
        · exact advance_moves (by nofun) _
    · exact advance_moves (by nofun) _
  · exact advance_moves (by nofun) _

theorem withStatus_moves {f : RemoteStatus → State → State} {s : State} {status : Byte}
    (hf : ∀ st, remoteStatusOf status = some st → Moves E s (f st s)) :
    Moves E s (withStatus status f s) := by
  unfold withStatus
  split
  · next h => exact hf _ h
  · exact advance_moves (by nofun) _

theorem replyFrameEffect_moves (hE : FrameEffects E) (hew : E .words) (hen : E .notify) (x : Station) (t : Tag) (i : Issue) (a status page v count : Byte) (ws : List Word)
    (s : State) : Moves E s (replyFrameEffect x t i a status page v count ws s) := by
  unfold replyFrameEffect
  split
  · exact frameFrom_moves hE fun u hs hx => (renewPresence_moves hE.peers hE.peerChange hs hx).trans
      (withStatus_moves fun st _ => takeReply_moves hE.requestDone (by rwa [renewPresence_station]) fun _ => ⟨hew, hen⟩)
  · exact malformedEffect_moves hE _ _

theorem takeAck_moves (he : E (.flag .requestDone)) (x : Station) (t : Tag) (i : Issue) (a : Byte) (st : RemoteStatus) (s : State) :
    Moves E s (takeAck x t i a st s) := by
  unfold takeAck
  split
  · next r ht =>
    split
    · next hk =>
      split
      · next ha =>
        obtain ⟨⟨k, hp⟩, -⟩ := answers_iff.1 ha
        exact requestAnswered_moves he ht hp (by simp [Request.isRefresh, hk]) _ _
      · exact advance_moves (by nofun) _
    · exact advance_moves (by nofun) _
  · exact advance_moves (by nofun) _

theorem ackFrameEffect_moves (hE : FrameEffects E) (x : Station) (t : Tag) (i : Issue) (a status : Byte) (s : State) :
    Moves E s (ackFrameEffect x t i a status s) :=
  frameFrom_moves hE fun _ hs hx => (renewPresence_moves hE.peers hE.peerChange hs hx).trans (withStatus_moves fun st _ => takeAck_moves hE.requestDone x t i a st _)

theorem inDispute_ne_none {x : Station} {owned : PageSet} {p : PageNo} {v : PageVariant}
    (h : inDispute x owned p v = true) : v ≠ .none := by
  rintro rfl; cases h

theorem disputeCheck_moves (he : E (.flag .requestDone)) (hd : E (.flag .dispute)) {s : State} (hs : s.station ≠ .setup) (x : Station) (owned : PageSet) :
    Moves E s (disputeCheck x owned s) := by
  unfold disputeCheck
  simp only
  split
  · exact (becomeDisputed_moves he hd hs fun p hp => inDispute_ne_none (Bool.and_eq_true_iff.1 hp).1).trans (setFlag_moves hd nofun _)
  · exact .refl

theorem ownerRejoined_station (x : Station) (s : State) : (ownerRejoined x s).station = s.station := by
  rw [ownerRejoined_only]

theorem joinFlagActions_moves (he : E (.flag .requestDone)) (x : Station) (s : State) : Moves E s (joinFlagActions x s) := by
  unfold joinFlagActions
  simp only
  split
  · next hs => exact ((ownerRejoined_moves he x s).tail (.responseMarked true hs)).trans (publishAll_moves _)
  · exact ownerRejoined_moves he x s

/-- A station that is PRESENT may have anything recorded. -/
theorem recordOwned_moves {s : State} {x : Station} (hs : s.station ≠ .setup) (hx : x ≠ s.record.own)
    (hst : s.peers[x].state ≠ .absent) (owned : PageSet) (limit : Byte) : Moves E s (recordOwned x owned limit s) := by
  refine .single (.peerRecorded x _ (fun _ h => ⟨hs, hx, ?_⟩) (.inr rfl))
  have hsound := h.1 x
  unfold PeerRecord.sound at hsound ⊢
  cases hst : s.peers[x].state <;> simp_all

theorem takeAnnounce_moves (hE : FrameEffects E) (hec : E (.flag .configError)) (hed : E (.flag .dispute)) {s : State} {x : Station} (hs : s.station ≠ .setup) (hx : x ≠ s.record.own) (j : Bool)
    (ring silence : Byte) (owned : PageSet) : Moves E s (takeAnnounce x j ring silence owned s) := by
  unfold takeAnnounce
  split
  · split
    · next hj =>
      have h : Moves E s (enterSetup s) := .single (.toSetup (by simp [hj]) hE.lifecycle)
      have herror : Moves E (enterSetup s) { enterSetup s with configError := .ringMismatch } := Moves.outside rfl
      exact (h.trans herror).trans (setFlag_moves hec nofun _)
    · exact (renewPresence_moves hE.peers hE.peerChange hs hx).trans (advance_moves (by nofun) _)
  · have hpres : (renewPresence x s).peers[x].state ≠ .absent := by
      rw [renewPresence_peers, if_pos rfl]; nofun
    have hrec := recordOwned_moves (E := E) (s := renewPresence x s) (by rwa [renewPresence_station])
      (by rwa [renewPresence_record]) hpres owned silence
    have hst : (recordOwned x owned silence (renewPresence x s)).station ≠ .setup := by
      rw [recordOwned, setPeer_station, renewPresence_station]; exact hs
    have h := ((renewPresence_moves hE.peers hE.peerChange hs hx).trans hrec).trans (disputeCheck_moves hE.requestDone hed hst x owned)
    simp only
    split
    · exact h.trans (joinFlagActions_moves hE.requestDone _ _)
    · exact h

theorem takeLeave_moves (hp : E .peers) (hf : E (.flag .peerChange)) (he : E (.flag .requestDone)) {s : State} {x : Station} (hs : s.station ≠ .setup) (hx : x ≠ s.record.own) :
    Moves E s (takeLeave x s) := by
  have hpeer : Moves E s (setPeer x PeerRecord.start s) := .single (.peerRecorded x _ (fun _ _ => ⟨hs, hx, rfl⟩) (.inl hp))
  unfold takeLeave
  split
  · exact hpeer
  · exact (hpeer.trans (setFlag_moves hf nofun _)).trans (ownerLost_moves he _ _)

theorem activityStartEffect_moves (s : State) : Moves E s (activityStartEffect s) := by
  have hlisten : ∀ n : Nat, s.listen = none → (s.listen.map fun _ => n) = none := fun n h => by simp [h]
  unfold activityStartEffect
  split
  · split
    · exact (Relation.ReflTransGen.single
        (.bitsCounted s.transmitter none (s.listen.map fun _ => 0) Iff.rfl (fun _ => rfl) (hlisten 0))).trans
        (Moves.outside rfl)
    · exact .single (.bitsCounted s.transmitter s.accessTimer (s.listen.map fun _ => 0) Iff.rfl id (hlisten 0))
    · exact (Relation.ReflTransGen.single
        (.bitsCounted s.transmitter s.accessTimer (s.listen.map fun _ => 0) Iff.rfl id (hlisten 0))).trans
        (Moves.outside rfl)
  · exact .refl

theorem foundBrokenEffect_moves (finding : Finding) (s : State) : Moves E s (foundBrokenEffect finding s) := by
  unfold foundBrokenEffect
  split
  · split
    · exact .refl
    · exact foundBroken_moves ..
  · exact .refl

theorem brokenFrameEndEffect_moves (s : State) : Moves E s (brokenFrameEndEffect s) := by
  unfold brokenFrameEndEffect
  split
  · next h =>
    have hs : s.station ≠ .setup := by
      simpa [State.onLine] using (Bool.and_eq_true_iff.1 h).1
    split
    · have h : Moves E s _ := .single (.lineTaken none (if s.listen.isSome then none else some Config.restBits)
        (s.listen.map fun _ => Config.restBits) fun _ => hs)
      have hrest : Moves E _ _ := h.trans (Moves.outside (t := { s with
        receiver := .resting, view := none, windowOpen := false
        accessTimer := if s.listen.isSome then none else some Config.restBits
        listen := s.listen.map fun _ => Config.restBits }) rfl)
      exact hrest.trans (advance_moves (by nofun) _)
    · exact .refl
  · exact .refl

theorem recoveringEndEffect_moves (s : State) : Moves E s (recoveringEndEffect s) := by
  have h : Moves E s { s with receiver := .resting, listen := s.listen.map fun _ => Config.restBits } :=
    (Relation.ReflTransGen.single (.bitsCounted s.transmitter s.accessTimer (s.listen.map fun _ => Config.restBits) Iff.rfl id
      fun h => by simp [h])).trans (Moves.outside rfl)
  unfold recoveringEndEffect
  split
  · exact h
  · exact h
  · exact .refl

end Sys2Proof.Machine
end

section
namespace Sys2Proof.Machine

variable {E : Effect → Prop}

/-! ### Chains of the tick and the expiries -/

theorem tickEffect_moves (s : State) : Moves E s (tickEffect s) := by
  have hp : ∀ p : PageNo, (mapVariants (fun _ v => v.tick) s).pages[p] =
      { s.pages[p] with variant := s.pages[p].variant.tick } := fun p => by simp [mapVariants]
  refine (Relation.ReflTransGen.single (.ticked (mapVariants (fun _ v => v.tick) s).pages
    (mapTable (fun _ c => { c with run := tickCounter c.prescale c.run }) s.channels)
    (mapTable (fun _ e => e.map Request.tick) s.table) (mapTable (fun _ r => r.tick) s.peers) hp
    (fun c => by simp) (fun u => by simp) fun x => by simp)).trans (Moves.outside ?_)
  rw [tickEffect, mapVariants_only]

theorem gatherExpiryEffect_moves (c : ChannelNo) (s : State) : Moves E s (gatherExpiryEffect c s) := by
  unfold gatherExpiryEffect
  split
  · next h =>
    have hk : s.channels[c].kind ≠ .period := fun e => by rw [e] at h; cases h
    have hidle : Moves E s _ := .single (.channelIdle c hk)
    exact hidle.trans (enqueueAll_moves fun _ p hp => (Bool.and_eq_true_iff.1 hp).2)
  · exact .refl

theorem periodExpiryEffect_moves (c : ChannelNo) (s : State) : Moves E s (periodExpiryEffect c s) := by
  unfold periodExpiryEffect
  split
  · next h =>
    have hact : ChannelsSound s → s.station = .active := fun hs => by
      by_contra hna
      have hrun := (hs c).2.1 hna
      rw [hrun] at h
      simp [isDue] at h
    have hload : Moves E s (loadChannel c s) := .single (.channelLoaded c hact)
    exact hload.trans (enqueueAll_moves fun e => nomatch e)
  · exact .refl

theorem replyTimeout_moves (he : E (.flag .requestDone)) {s : State} {t : Tag} {r : Request} {k : Counter} (ht : s.table[t] = some r)
    (hp : r.phase = .sent k) : Moves E s (replyTimeout t r s) := by
  unfold replyTimeout
  split
  · next ha => exact .single (.requestRetried t r k ht hp ha)
  split
  · next hr => exact refreshFailed_moves ht hp hr
  · next hr =>
    exact .single (.requestEnded t r k (.failed .timeout) ht hp (by simpa using hr) rfl he)

theorem replyTimerExpiryEffect_moves (he : E (.flag .requestDone)) (t : Tag) (s : State) : Moves E s (replyTimerExpiryEffect t s) := by
  unfold replyTimerExpiryEffect
  split
  · next r ht =>
    split
    · next k hp =>
      split
      · exact replyTimeout_moves he ht hp
      · exact .refl
    · exact .refl
  · exact .refl

/-- An aged mirror is sound, and its mark is the one it had (R63). -/
theorem mirrorOk_aged {d : MirrorDesc} {r : MirrorRun} (h : (PageVariant.mirror d r).mirrorOk = true) :
    (PageVariant.mirror d { r with state := if r.state = .fresh ∨ r.state = .gapped then .stale else r.state
                                   age := none }).mirrorOk = true := by
  obtain ⟨hlast, hmark, -⟩ := (mirrorOk_iff d r).1 h
  have hempty : (if r.state = .fresh ∨ r.state = .gapped then .stale else r.state) = MirrorState.empty ↔ r.state = .empty := by
    cases r.state <;> simp
  exact (mirrorOk_iff _ _).2 ⟨hempty.trans hlast, fun e => hmark (hempty.1 e), fun _ => rfl, fun _ => rfl, rfl⟩

theorem ageExpiryEffect_moves (p : PageNo) (s : State) : Moves E s (ageExpiryEffect p s) := by
  unfold ageExpiryEffect
  split
  · next d r hv =>
    split
    · next hdue =>
      refine .single (.mirrorChanged p d r _ hv (fun h => ⟨mirrorOk_aged h, Iff.rfl⟩) fun hq hs => ?_)
      obtain ⟨-, -, -, -, -, -, -, -, -, hstart⟩ := hq hs
      have hr := hstart p
      rw [hv, mirrorAtStart_iff] at hr
      rw [hr] at hdue
      cases hdue
    · exact .refl
  · exact .refl

theorem silenceExpiryEffect_moves (hp : E .peers) (hf : E (.flag .peerChange)) (he : E (.flag .requestDone)) (x : Station) (s : State) : Moves E s (silenceExpiryEffect x s) := by
  unfold silenceExpiryEffect
  split
  · next c hc =>
    split
    · have hpeer : Moves E s (setPeer x { s.peers[x] with state := .silent } s) := by
        refine .single (.peerRecorded x _ (fun _ h => ⟨fun e => ?_, fun e => ?_, rfl⟩) (.inl hp))
        · exact nomatch (h.2.2 e x).symm.trans hc
        · subst e; exact nomatch h.2.1.symm.trans hc
      exact (hpeer.trans (setFlag_moves hf nofun _)).trans (ownerLost_moves he _ _)
    · exact .refl
  · exact .refl

theorem presenceExpiryEffect_moves (s : State) : Moves E s (presenceExpiryEffect s) := by
  unfold presenceExpiryEffect
  split
  · next h => exact .single (.presenceExpired fun e => by simp [e, isDue] at h)
  · exact .refl

/-! ### Chains of the turns on the line -/

theorem startFrame_moves (he : E .start) {s t : State} (h : Moves E s t) (o : Origin) (f : Frame) (hs : t.station.usesSlots = true)
    (ht : t.transmitter = .idle) (hb : t.buffer = none) : Moves E s (startFrame o f t) :=
  h.tail (.frameStarted o f hs ht hb he)

theorem usesSlots_of_active {s : State} (h : s.station = .active) : s.station.usesSlots = true := by rw [h]; rfl

theorem sendAnswer_moves (he : E .start) {s t : State} (hs : s.station = .active) (ht : s.transmitter = .idle) (hb : s.buffer = none)
    (h : sendAnswer s = some t) : Moves E s t := by
  unfold sendAnswer at h
  split at h
  · next e rest hq =>
    obtain rfl := Option.some.inj h
    have htaken : Moves E s { s with replyQueue := rest } := .single (.answerTaken e rest hq)
    exact startFrame_moves he htaken _ _ (usesSlots_of_active hs) ht hb
  · cases h

theorem sendRequest_moves (he : E .start) {s t : State} (hs : s.station = .active) (ht : s.transmitter = .idle) (hb : s.buffer = none)
    (h : sendRequest s = some t) : Moves E s t := by
  unfold sendRequest at h
  split at h
  · next u rest hq =>
    split at h
    · next r hr =>
      obtain rfl := Option.some.inj h
      have hstart : Moves E s (startFrame (.request u) (requestFrame s u r) s) :=
        startFrame_moves he .refl _ _ (usesSlots_of_active hs) ht hb
      exact hstart.tail (.frameClaimed u rest r _ hq hr rfl rfl rfl he)
    · cases h
  · cases h

theorem sendUpdate_moves (he : E .start) {s t : State} (hs : s.station = .active) (ht : s.transmitter = .idle) (hb : s.buffer = none)
    (h : sendUpdate s = some t) : Moves E s t := by
  unfold sendUpdate at h
  split at h
  · next p x rest hq =>
    split at h
    · next d r hv =>
      obtain rfl := Option.some.inj h
      have hpub : Moves E s _ := .single (.published p x rest d r (r.version + 1) hq hv)
      exact startFrame_moves he hpub _ _ (usesSlots_of_active hs) ht hb
    · cases h
  · cases h

theorem sendPresence_moves (he : E .start) {s t : State} (hs : s.station = .active) (ht : s.transmitter = .idle) (hb : s.buffer = none)
    (h : sendPresence s = some t) : Moves E s t := by
  unfold sendPresence at h
  split at h
  · obtain rfl := Option.some.inj h
    exact startFrame_moves he .refl _ _ (usesSlots_of_active hs) ht hb
  · cases h

theorem sendResponseAnnounce_moves (he : E .start) {s t : State} (hs : s.station = .active) (ht : s.transmitter = .idle)
    (hb : s.buffer = none) (h : sendResponseAnnounce s = some t) : Moves E s t := by
  unfold sendResponseAnnounce at h
  split at h
  · obtain rfl := Option.some.inj h
    have hmark : Moves E s { s with responseMark := false } := .single (.responseMarked false hs)
    exact startFrame_moves he hmark _ _ (usesSlots_of_active hs) ht hb
  · cases h

theorem buildFrame_moves (he : E .start) {s t : State} (ht : s.transmitter = .idle) (hb : s.buffer = none) (h : buildFrame s = some t) :
    Moves E s t := by
  unfold buildFrame at h
  split at h
  · next hs =>
    obtain rfl := Option.some.inj h
    exact startFrame_moves he .refl _ _ (by rw [hs]; rfl) ht hb
  · next hs =>
    simp only [Option.or_eq_some_iff] at h
    rcases h with h | ⟨-, h | ⟨-, h | ⟨-, h | ⟨-, h⟩⟩⟩⟩
    · exact sendResponseAnnounce_moves he hs ht hb h
    · exact sendAnswer_moves he hs ht hb h
    · exact sendRequest_moves he hs ht hb h
    · exact sendUpdate_moves he hs ht hb h
    · exact sendPresence_moves he hs ht hb h
  · next hs =>
    obtain rfl := Option.some.inj h
    exact startFrame_moves he .refl _ _ (by rw [hs]; rfl) ht hb
  · cases h
  · cases h

theorem selectFrame_moves (he : E .start) {s : State} (hs : s.station.usesSlots = true) (ht : s.transmitter = .idle) :
    Moves E s (selectFrame s) := by
  unfold selectFrame
  split
  · next f hf => exact .single (.frameResent f hs ht hf he)
  · next hb =>
    cases h : buildFrame s with
    | none => exact .refl
    | some t => exact buildFrame_moves he ht hb h

/-- The count to which a start instant brings the RUNNING access timer. -/
theorem accessTimer_moves {s : State} (hs : s.accessTimer ≠ none) (n : Nat) :
    Moves E s { s with accessTimer := some n, windowOpen := false } := by
  have h : Moves E s { s with accessTimer := some n } :=
    .single (.bitsCounted s.transmitter (some n) s.listen Iff.rfl (fun e => absurd e hs) id)
  exact h.trans (Moves.outside rfl)

theorem rotationSlotEffect_moves (he : E .start) (s : State) : Moves E s (rotationSlotEffect s) := by
  unfold rotationSlotEffect
  split
  · next n hn =>
    have htimer := accessTimer_moves (E := E) (s := s) (by rw [hn]; nofun) (s.record.wrapCount s.slotCount)
    simp only
    split
    · next h =>
      obtain ⟨hs, ht⟩ := Bool.and_eq_true_iff.1 h
      exact htimer.trans (selectFrame_moves he hs (of_decide_eq_true ht))
    · exact htimer
  · exact .refl

theorem replyWindowEffect_moves (he : E .start) (s : State) : Moves E s (replyWindowEffect s) := by
  unfold replyWindowEffect
  split
  · next h =>
    have htimer := accessTimer_moves (E := E) (s := s) (Option.isSome_iff_ne_none.1 (Bool.and_eq_true_iff.1 h).2) Config.quietGap
    simp only
    split
    · next h =>
      obtain ⟨hs, hb, ht⟩ := h
      cases hsend : sendAnswer { s with accessTimer := some Config.quietGap, windowOpen := false } with
      | none => exact htimer
      | some t => exact htimer.trans (sendAnswer_moves he hs ht hb hsend)
    · exact htimer
  · exact .refl

theorem listenPeriodEndEffect_moves (s : State) : Moves E s (listenPeriodEndEffect s) := by
  unfold listenPeriodEndEffect
  split
  · next h => exact .single (.lineTaken none (some 0) none fun _ => by rw [h.1]; nofun)
  · exact .refl

theorem readbackMismatchEffect_moves (s : State) : Moves E s (readbackMismatchEffect s) := by
  unfold readbackMismatchEffect
  split
  · next n ht => exact .single (.bitsCounted (.jamming 0) s.accessTimer s.listen (by simp [ht]) id id)
  · exact .refl

theorem eighthAbort_moves (hl : E .lifecycle) (hm : E (.flag .muted)) (he : E (.flag .requestDone)) (hf : E (.flag .left)) {s : State} (ht : s.transmitter = .idle) : Moves E s (eighthAbort s) := by
  unfold eighthAbort
  split
  · exact enterMuted_moves hl hm he ht _
  · exact enterMuted_moves hl hm he ht _
  · next hs =>
    have h : Moves E s (enterSetup s) := .single (.toSetup (by rw [hs]; nofun) hl)
    exact h.trans (setFlag_moves hf nofun _)
  · exact .refl

theorem abortEffect_moves (hl : E .lifecycle) (hm : E (.flag .muted)) (he : E (.flag .requestDone)) (hf : E (.flag .left)) (s : State) : Moves E s (abortEffect s) := by
  unfold abortEffect
  split
  · next n ht =>
    have habort : ∀ n, n < Config.abortLimit →
        Moves E s { foundBroken 0 s with transmitter := .idle, buffer := s.buffer.bind afterAbort, abortCount := n } :=
      fun n hn => (foundBroken_moves 0 s).tail (.aborted n (by simp [ht]) hn)
    simp only
    split
    · next hn => exact habort _ hn
    · exact (habort 0 (by decide)).trans (eighthAbort_moves hl hm he hf rfl)
  · exact .refl

theorem reloadPresence_moves (s : State) : Moves E s (reloadPresence s) := by
  unfold reloadPresence
  split
  · next hs => exact .single (.presenceLoaded hs)
  · exact .refl

theorem enterActive_moves (hl : E .lifecycle) (hf : E (.flag .joined)) {s : State} (hs : s.station = .joining) : Moves E s (enterActive s) := by
  have hactive : Moves E (setFlag .joined s) _ := .single (.toActive hs hl)
  exact ((((setFlag_moves hf nofun s).trans hactive).trans (publishAll_moves _)).trans (claimRefreshes_moves _))

theorem requestSent_only (t : Tag) (s : State) : requestSent t s = { s with table := (requestSent t s).table } := by
  rcases requestSent_cases t s with ⟨h, -⟩ | ⟨r, -, -, h⟩ <;> rw [h]
  rfl

/-- What becomes of the table when a request frame is sent does not depend on the line, the buffer or the presence timer. -/
theorem requestSent_table_congr (t : Tag) {s u : State} (ht : u.table = s.table) (hr : u.record = s.record) :
    (requestSent t u).table = (requestSent t s).table := by
  unfold requestSent
  rw [ht, hr]
  split
  · split
    · rw [setEntry_table, setEntry_table, ht]
    · exact ht
  · exact ht

theorem reloadPresence_table (s : State) : (reloadPresence s).table = s.table := by unfold reloadPresence; split <;> rfl

theorem reloadPresence_record (s : State) : (reloadPresence s).record = s.record := by unfold reloadPresence; split <;> rfl

/-- A completion and what the request unit is told of it (R124, R78). -/
theorem frameSent_moves {s : State} (hs : SetupQuiet s → s.station ≠ .setup) (ht : s.transmitter ≠ .idle) {f : TxFrame}
    (hf : s.buffer = some f) : Moves E s { frameSent s with table := tableSent f.origin s } := by
  have htable : tableSent f.origin (goodEnd (some s.record.own) false s) = tableSent f.origin s := by
    cases f.origin with
    | request t => exact requestSent_table_congr t rfl rfl
    | _ => rfl
  have hend : Moves E s (goodEnd (some s.record.own) false s) :=
    (Relation.ReflTransGen.single (.lineTaken (some s.record.own) (some 0) none hs)).trans (Moves.outside rfl)
  have h := hend.tail (.frameSent f ht hf)
  rw [htable] at h
  exact h

theorem frameSent_moves_of_plain {s : State} (hs : SetupQuiet s → s.station ≠ .setup) (ht : s.transmitter ≠ .idle)
    {f : TxFrame} (hf : s.buffer = some f) (ho : ∀ t, f.origin ≠ .request t) : Moves E s (frameSent s) := by
  have hsent := frameSent_moves (E := E) hs ht hf
  have htable : tableSent f.origin s = s.table := by
    cases h : f.origin with
    | request t => exact absurd h (ho t)
    | _ => rfl
  rw [htable] at hsent
  exact hsent

theorem completionTold_moves {s : State} (hs : SetupQuiet s → s.station ≠ .setup) (ht : s.transmitter ≠ .idle) {f : TxFrame}
    (hf : s.buffer = some f)
    (hjoin : f.origin = .joinAnnounce → s.station = .joining → E .lifecycle ∧ E (.flag .joined))
    (hleave : f.origin = .leave → s.station = .leaving → E .lifecycle ∧ E (.flag .left)) : Moves E s (completionTold f.origin (frameSent s)) := by
  have hsent := frameSent_moves (E := E) hs ht hf
  have hother := frameSent_moves_of_plain (E := E) hs ht hf
  cases ho : f.origin with
  | request t =>
    rw [ho] at hsent
    have htable : (requestSent t (reloadPresence (frameSent s))).table = (requestSent t s).table :=
      requestSent_table_congr t (reloadPresence_table _) (reloadPresence_record _)
    refine hsent.trans ?_
    change Moves E _ (requestSent t (reloadPresence (frameSent s)))
    rw [requestSent_only, htable]
    have hreload := reloadPresence_moves (E := E) { frameSent s with table := (requestSent t s).table }
    have heq : reloadPresence { frameSent s with table := (requestSent t s).table } =
        { reloadPresence (frameSent s) with table := (requestSent t s).table } := by
      unfold reloadPresence
      split <;> rfl
    rw [heq] at hreload
    exact hreload
  | joinAnnounce =>
    unfold completionTold
    simp only
    have h := hother fun t => by rw [ho]; nofun
    split
    · next hj =>
      obtain ⟨hel, hej⟩ := hjoin ho hj
      exact h.trans (enterActive_moves hel hej hj)
    · exact h.trans (reloadPresence_moves _)
  | leave =>
    unfold completionTold
    simp only
    have h := hother fun t => by rw [ho]; nofun
    split
    · next hl =>
      obtain ⟨hel, hef⟩ := hleave ho hl
      have hsetup : Moves E (frameSent s) (enterSetup (frameSent s)) := .single (.toSetup (by rw [hl]; nofun) hel)
      exact (h.trans hsetup).trans (setFlag_moves hef nofun _)
    · exact h.trans (reloadPresence_moves _)
  | _ => exact (hother fun t => by rw [ho]; nofun).trans (reloadPresence_moves _)

theorem completionEffect_moves (hel : E .lifecycle) (hej : E (.flag .joined)) (hef : E (.flag .left)) (s : State) : Moves E s (completionEffect s) := by
  unfold completionEffect
  split
  · next n f ht hf =>
    have hne : s.transmitter ≠ .idle := by rw [ht]; nofun
    exact completionTold_moves (fun hq hs => hne (hq hs).1) hne hf (fun _ _ => ⟨hel, hej⟩) fun _ _ => ⟨hel, hef⟩
  · exact .refl

/-! ### Chains of the host commands -/

theorem inSetup_moves {f : State → State} {s : State} (hf : s.station = .setup → Moves E s (f s)) : Moves E s (inSetup f s) := by
  unfold inSetup
  split
  · next h => exact hf h
  · exact respond_moves ..

theorem stationRecordOf_inRange {a b c d e f : Byte} {r : StationRecord} (h : stationRecordOf a b c d e f = some r) :
    r.inRange = true := by
  unfold stationRecordOf at h
  split at h
  · split at h
    · cases h
    · next hr =>
      obtain rfl := Option.some.inj h
      have hd := d.isLt
      have he := e.isLt
      simp only [StationRecord.inRange, decide_eq_true_eq]
      omega
  · cases h

theorem setStationEffect_moves (a b c d e f : Byte) {s : State} (hs : s.station = .setup) :
    Moves E s (setStationEffect a b c d e f s) := by
  unfold setStationEffect
  split
  · next r hr =>
    have h : Moves E s { s with record := r } := .single (.setStation r hs (stationRecordOf_inRange hr))
    exact h.respond ..
  · exact respond_moves ..

/-- SET_PAGE names descriptors with the starting run-state of their variant (R6). -/
theorem variantOf_start {args : PageArgs} {v : PageVariant} (h : variantOf args = some v) :
    v.restarted = v ∧ v.spanOk = true ∧ v.mirrorOk = true := by
  unfold variantOf at h
  split at h
  · split at h
    · obtain rfl := Option.some.inj h; exact ⟨rfl, rfl, rfl⟩
    · cases h
  · split at h
    · split at h
      · obtain rfl := Option.some.inj h
        exact ⟨rfl, rfl, mirrorOk_start _⟩
      · split at h
        · obtain rfl := Option.some.inj h; exact ⟨rfl, rfl, rfl⟩
        · cases h
    · cases h
  · obtain rfl := Option.some.inj h; exact ⟨rfl, rfl, rfl⟩
  · cases h

theorem setPageEffect_moves (page : Byte) (args : PageArgs) {s : State} (hs : s.station = .setup) :
    Moves E s (setPageEffect page args s) := by
  unfold setPageEffect
  split
  · next p v hp hv =>
    obtain ⟨hstart, hspan, hmirror⟩ := variantOf_start hv
    have h : Moves E s (setVariant p v s) := .single (.setPage p v hs hstart hspan hmirror)
    exact h.respond ..
  · exact respond_moves ..

theorem channelConfigOf_inRange {kind prescale countLess : Byte} {c : Channel}
    (h : channelConfigOf kind prescale countLess = some c) : c.inRange = true ∧ c.run = none := by
  unfold channelConfigOf at h
  split at h
  · split at h
    · cases h
    · next hr =>
      obtain rfl := Option.some.inj h
      have hc := countLess.isLt
      refine ⟨?_, rfl⟩
      simp only [Channel.inRange, counterWithin, Bool.and_true, decide_eq_true_eq]
      omega
  · cases h

theorem setChannelEffect_moves (channel kind prescale countLess : Byte) {s : State} (hs : s.station = .setup) :
    Moves E s (setChannelEffect channel kind prescale countLess s) := by
  unfold setChannelEffect
  split
  · next c config hc hconfig =>
    obtain ⟨hrange, hrun⟩ := channelConfigOf_inRange hconfig
    have h : Moves E s { s with channels := s.channels.set c config } := .single (.setChannel c config hs hrange hrun)
    exact h.respond ..
  · exact respond_moves ..

theorem joinEffect_moves (hl : E .lifecycle) (hf : E (.flag .configError)) (s : State) : Moves E s (joinEffect s) := by
  unfold joinEffect
  split
  · next hs =>
    split
    · next e _ =>
      have herror : Moves E s { s with configError := e } := Moves.outside rfl
      exact Moves.respond (herror.trans (setFlag_moves hf nofun _)) ..
    · have herror : Moves E s { s with configError := .none } := Moves.outside rfl
      exact Moves.respond (herror.tail (.toJoining .joining (.inl hs) hl)) ..
  · exact respond_moves ..

theorem leaveEffect_moves (hl : E .lifecycle) (hf : E (.flag .left)) (he : E (.flag .requestDone)) (s : State) : Moves E s (leaveEffect s) := by
  unfold leaveEffect
  split
  · next hs => exact (enterLeaving_moves hl he hs).respond ..
  · next hs =>
    have h : Moves E s (enterSetup s) := .single (.toSetup (by rw [hs]; nofun) hl)
    exact Moves.respond (h.trans (setFlag_moves hf nofun _)) ..
  · exact respond_moves ..

theorem rejoinEffect_moves (hl : E .lifecycle) (s : State) : Moves E s (rejoinEffect s) := by
  unfold rejoinEffect
  split
  · next hs =>
    have h : Moves E s (enterJoining .rejoined s) := .single (.toJoining .rejoined (.inr hs) hl)
    exact h.respond ..
  · exact respond_moves ..

theorem softResetEffect_moves (hl : E .lifecycle) (hc : E .clear) (s : State) : Moves E s (softResetEffect s) := by
  have h : Moves E s _ := .single (.softReset hl hc)
  have hclear := h.tail (.flagsCleared 0xFF#8 hc)
  have hcount := hclear.tail (.counted LineCounters.zero (Nat.zero_le _))
  refine hcount.trans (Moves.outside ?_)
  have hflags : s.flags &&& ~~~0xFF#8 = 0#8 := by simp
  simp only [softResetEffect, clearFlags, respond]
  rw [show (enterSetup s).flags &&& ~~~0xFF#8 = 0#8 from hflags]
  rfl

theorem readEffect_moves (he : E .host) (page offset count : Byte) (s : State) : Moves E s (readEffect page offset count s) := by
  unfold readEffect
  split
  · next a _ =>
    unfold readRoute
    split
    · exact respond_moves ..
    split
    · exact respond_moves ..
    · exact respond_moves ..
    · split <;> exact respond_moves ..
    · exact hostClaim_moves he (by nofun) _ _ _
  · exact respond_moves ..

theorem accessOf_eq_some {page offset count : Byte} {a : Access} :
    accessOf page offset count = some a ↔ a.page.val = page.toNat ∧ a.offset = offset.toNat ∧ a.count = count.toNat ∧
      offset.toNat < 64 ∧ 1 ≤ count.toNat ∧ count.toNat ≤ 16 ∧ offset.toNat + count.toNat ≤ 64 := by
  obtain ⟨p, o, n⟩ := a
  unfold accessOf pageOf
  by_cases hp : page.toNat < 64
  · rw [dif_pos hp]
    by_cases h : offset.toNat < Config.pageWords ∧ 1 ≤ count.toNat ∧ count.toNat ≤ Config.longestAccess ∧
        offset.toNat + count.toNat ≤ Config.pageWords
    · simp only
      rw [if_pos h]
      simp only [Option.some.injEq, Access.mk.injEq, Fin.ext_iff, Config.pageWords, Config.longestAccess] at h ⊢
      omega
    · simp only
      rw [if_neg h]
      exact ⟨nofun, fun ⟨_, _, _, h'⟩ => absurd h' h⟩
  · rw [dif_neg hp]
    exact ⟨nofun, fun ⟨h, _⟩ => absurd (h ▸ p.isLt) hp⟩

theorem writeRoute_moves (he : E .host) (hew : E .words) {a : Access} {ws : List Word} (hw : 1 ≤ ws.length) (ho : a.offset + ws.length ≤ 64) (s : State) :
    Moves E s (writeRoute a ws s) := by
  unfold writeRoute
  split
  · exact respond_moves ..
  split
  · exact respond_moves ..
  · exact (storeWrite_moves hew hw ho s).respond ..
  · split
    · exact respond_moves ..
    · exact hostClaim_moves he (by nofun) _ _ _
  · split
    · exact respond_moves ..
    · exact hostClaim_moves he (by nofun) _ _ _

theorem writeEffect_moves (he : E .host) (hew : E .words) (page offset count : Byte) (ws : List Word) (s : State) :
    Moves E s (writeEffect page offset count ws s) := by
  unfold writeEffect
  split
  · exact .refl
  next hlen =>
  split
  · next a ha =>
    obtain ⟨-, ho, hc, -, hc₁, hc₂, hr⟩ := accessOf_eq_some.1 ha
    have hcount : writeWordCount count = count.toNat := if_pos ⟨hc₁, hc₂⟩
    have htake : (ws.take a.count).length = count.toNat := by rw [List.length_take]; omega
    exact writeRoute_moves he hew (by omega) (by omega) s
  · exact respond_moves ..

theorem collectEffect_moves (he : E .host) (tag : Byte) (s : State) : Moves E s (collectEffect tag s) := by
  unfold collectEffect
  split
  · exact respond_moves ..
  next t _ =>
  split
  · exact respond_moves ..
  next r ht =>
  split
  · exact respond_moves ..
  next hr =>
  have hfree : r.isOpen = false → Moves E s (setEntry t none s) := fun ho =>
    .single (.collected t r ht ho (by simpa using hr) he)
  unfold collectEntry
  split
  · exact respond_moves ..
  · exact respond_moves ..
  · next h => exact (hfree (by simp [Request.isOpen, h])).respond ..
  · next h => exact (hfree (by simp [Request.isOpen, h])).respond ..

theorem flushEffect_moves (page : Byte) (s : State) : Moves E s (flushEffect page s) := by
  unfold flushEffect
  split
  · exact respond_moves ..
  split
  · unfold flushPage
    split
    · next d r hv =>
      split
      · exact respond_moves ..
      split
      · exact respond_moves ..
      split
      · exact respond_moves ..
      · next h =>
        refine Moves.respond (enqueue_moves fun _ => ?_) ..
        rw [hv]
        simpa [PageVariant.hasSpan, Option.isSome_iff_ne_none] using h
    · exact respond_moves ..
  · exact respond_moves ..

theorem popNotifyEffect_moves (he : E .host) (s : State) : Moves E s (popNotifyEffect s) := by
  unfold popNotifyEffect
  split
  · next p rest h =>
    have hpop : Moves E s { s with notify := rest } := .single (.popped p rest h he)
    exact hpop.respond ..
  · exact respond_moves ..

theorem execHardwareReset_moves (hr : E .reset) (hq : E .queue) (s : State) :
    Moves E s { State.reset with pending := s.pending, resetHeld := true } := by
  have h : Moves E s State.reset := .single (.hardwareReset hr)
  exact h.tail (.queueChanged s.pending true hq)

/-! ### Every step is a chain of moves -/

theorem unlessHeld_moves {f : State → State} {s : State} (hf : Moves E s (f s)) : Moves E s (unlessHeld f s) := by
  unfold unlessHeld
  split
  · exact .refl
  · exact hf

theorem taken_moves {f : State → State} {s t : State} (hf : Moves E s (f s)) (h : taken f s = .next t) : Moves E s t := by
  obtain rfl := Host.Outcome.next.inj h
  exact unlessHeld_moves hf

theorem renewFrame_moves (hE : FrameEffects E) (x : Station) (s : State) :
    Moves E s (frameFrom x false (renewPresence x) s) :=
  frameFrom_moves hE fun _ => renewPresence_moves hE.peers hE.peerChange

/-- The effects that any good frame can have: those of `FrameEffects`. -/
def frameRowEffects : List Effect := [.lifecycle, .flag .muted, .flag .requestDone, .peers, .flag .peerChange]

/-- The effects that each row can have. -/
def rowEffects : Instr → List Effect
  | .setMask _ _ => [.mask]
  | .join => [.lifecycle, .flag .configError]
  | .leave => [.lifecycle, .flag .left, .flag .requestDone]
  | .rejoin => [.lifecycle]
  | .softReset => [.lifecycle, .clear]
  | .read _ _ _ => [.host]
  | .write _ _ _ _ => [.host, .words]
  | .collect _ => [.host]
  | .popNotify => [.host]
  | .clearEvents _ => [.clear]
  | .hardwareReset => [.reset, .queue]
  | .resetRelease => [.queue]
  | .replyTimerExpiry _ => [.flag .requestDone]
  | .silenceCounterExpiry _ => [.peers, .flag .peerChange, .flag .requestDone]
  | .updateFrame _ _ _ _ _ => frameRowEffects ++ [.words, .notify]
  | .fetchFrame _ _ _ _ _ _ _ => frameRowEffects
  | .writeFrame _ _ _ _ _ _ _ => frameRowEffects ++ [.words, .notify]
  | .replyFrame _ _ _ _ _ _ _ _ _ => frameRowEffects ++ [.words, .notify]
  | .ackFrame _ _ _ _ _ => frameRowEffects
  | .announceFrame _ _ _ _ _ => frameRowEffects ++ [.flag .configError, .flag .dispute]
  | .presenceFrame _ => frameRowEffects
  | .leaveFrame _ => frameRowEffects
  | .duplicateStationFrame => frameRowEffects
  | .malformedFrame _ => frameRowEffects
  | .otherTargetFrame _ => frameRowEffects
  | .replyWindow => [.start]
  | .rotationSlot => [.start]
  | .abort => [.lifecycle, .flag .muted, .flag .requestDone, .flag .left]
  | .completion => [.lifecycle, .flag .joined, .flag .left]
  | _ => []

theorem frameEffects_of_forall (hE : ∀ e ∈ frameRowEffects, E e) : FrameEffects E where
  lifecycle := hE _ (by decide)
  muted := hE _ (by decide)
  requestDone := hE _ (by decide)
  peers := hE _ (by decide)
  peerChange := hE _ (by decide)

theorem frameEffects_of_append {l : List Effect} (hE : ∀ e ∈ frameRowEffects ++ l, E e) : FrameEffects E :=
  frameEffects_of_forall fun e he => hE e (List.mem_append_left _ he)

/-- A row is a chain of moves with no effects but its own. -/
theorem exec_moves {c : Instr} {s t : State} (h : exec c s = .next t) (hE : ∀ e ∈ rowEffects c, E e) : Moves E s t := by
  cases c with
  | setStation a b c d e f => exact taken_moves (inSetup_moves (setStationEffect_moves a b c d e f)) h
  | setPage page args => exact taken_moves (inSetup_moves (setPageEffect_moves page args)) h
  | setChannel a b c d => exact taken_moves (inSetup_moves (setChannelEffect_moves a b c d)) h
  | setMask flags second =>
    have hmask : Moves E s _ := .single (.maskSet flags (second.getLsbD 0) (hE _ (.head _)))
    exact taken_moves (hmask.respond ..) h
  | join => exact taken_moves (joinEffect_moves (hE _ (.head _)) (hE _ (by decide)) s) h
  | leave => exact taken_moves (leaveEffect_moves (hE _ (.head _)) (hE _ (by decide)) (hE _ (by decide)) s) h
  | rejoin => exact taken_moves (rejoinEffect_moves (hE _ (.head _)) s) h
  | softReset => exact taken_moves (softResetEffect_moves (hE _ (.head _)) (hE _ (by decide)) s) h
  | read page offset count => exact taken_moves (readEffect_moves (hE _ (.head _)) page offset count s) h
  | write page offset count words =>
    exact taken_moves (writeEffect_moves (hE _ (.head _)) (hE _ (.tail _ (.head _))) page offset count words s) h
  | collect tag => exact taken_moves (collectEffect_moves (hE _ (.head _)) tag s) h
  | flush page => exact taken_moves (flushEffect_moves page s) h
  | status =>
    have hcount : Moves E s _ := .single (.counted LineCounters.zero (Nat.zero_le _))
    exact taken_moves (hcount.respond ..) h
  | peer station =>
    refine taken_moves ?_ h
    unfold peerEffect; split <;> exact respond_moves ..
  | pageState page =>
    refine taken_moves ?_ h
    unfold pageStateEffect; split <;> exact respond_moves ..
  | channelState channel =>
    refine taken_moves ?_ h
    unfold channelStateEffect; split <;> exact respond_moves ..
  | popNotify => exact taken_moves (popNotifyEffect_moves (hE _ (.head _)) s) h
  | clearEvents named =>
    have hclear : Moves E s _ := .single (.flagsCleared named (hE _ (.head _)))
    exact taken_moves (hclear.respond ..) h
  | unknownCommand code => exact taken_moves (respond_moves ..) h
  | transactionDiscarded transaction => obtain rfl := Host.Outcome.next.inj h; exact .refl
  | hardwareReset =>
    obtain rfl := Host.Outcome.next.inj h
    exact execHardwareReset_moves (hE _ (.head _)) (hE _ (by decide)) s
  | resetRelease =>
    obtain rfl := Host.Outcome.next.inj h
    split
    · have hq : Moves E s _ := .single (.queueChanged s.pending false (hE _ (.head _)))
      exact hq.trans (Moves.outside rfl)
    · exact .refl
  | tick => exact taken_moves (tickEffect_moves s) h
  | gatherChannelExpiry c => exact taken_moves (gatherExpiryEffect_moves c s) h
  | periodChannelExpiry c => exact taken_moves (periodExpiryEffect_moves c s) h
  | replyTimerExpiry t => exact taken_moves (replyTimerExpiryEffect_moves (hE _ (.head _)) t s) h
  | ageCounterExpiry p => exact taken_moves (ageExpiryEffect_moves p s) h
  | silenceCounterExpiry x =>
    exact taken_moves (silenceExpiryEffect_moves (hE _ (.head _)) (hE _ (.tail _ (.head _))) (hE _ (.tail _ (.tail _ (.head _)))) x s) h
  | presenceTimerExpiry => exact taken_moves (presenceExpiryEffect_moves s) h
  | activityStart => exact taken_moves (activityStartEffect_moves s) h
  | updateFrame sender page version first words =>
    exact taken_moves (updateFrameEffect_moves (frameEffects_of_append hE) (hE _ (List.mem_append_right frameRowEffects (.head _)))
      (hE _ (List.mem_append_right frameRowEffects (.tail _ (.head _)))) sender page version first words s) h
  | fetchFrame sender page offset count tag issue attempt =>
    exact taken_moves (fetchFrameEffect_moves (frameEffects_of_forall hE) sender page offset count tag issue attempt s) h
  | writeFrame sender page offset tag issue attempt words =>
    exact taken_moves (writeFrameEffect_moves (frameEffects_of_append hE) (hE _ (List.mem_append_right frameRowEffects (.head _)))
      (hE _ (List.mem_append_right frameRowEffects (.tail _ (.head _)))) sender page offset tag issue attempt words s) h
  | replyFrame sender tag issue attempt status page version count words =>
    exact taken_moves (replyFrameEffect_moves (frameEffects_of_append hE) (hE _ (List.mem_append_right frameRowEffects (.head _)))
      (hE _ (List.mem_append_right frameRowEffects (.tail _ (.head _)))) sender tag issue attempt status page version count words s) h
  | ackFrame sender tag issue attempt status =>
    exact taken_moves (ackFrameEffect_moves (frameEffects_of_forall hE) sender tag issue attempt status s) h
  | announceFrame sender joinFlag ring silence owned =>
    have hF : FrameEffects E := frameEffects_of_append hE
    exact taken_moves (frameFrom_moves hF fun _ hs hx => takeAnnounce_moves hF (hE _ (List.mem_append_right frameRowEffects (.head _)))
      (hE _ (List.mem_append_right frameRowEffects (.tail _ (.head _)))) hs hx joinFlag ring silence owned) h
  | presenceFrame sender => exact taken_moves (renewFrame_moves (frameEffects_of_forall hE) sender s) h
  | leaveFrame sender =>
    have hF : FrameEffects E := frameEffects_of_forall hE
    exact taken_moves (frameFrom_moves hF fun _ => takeLeave_moves hF.peers hF.peerChange hF.requestDone) h
  | duplicateStationFrame => exact taken_moves (frameFrom_moves (frameEffects_of_forall hE) fun _ _ _ => .refl) h
  | malformedFrame sender => exact taken_moves (malformedEffect_moves (frameEffects_of_forall hE) sender s) h
  | brokenFrameEnd => exact taken_moves (brokenFrameEndEffect_moves s) h
  | recoveringEnd =>
    refine taken_moves ?_ h
    split
    · exact recoveringEndEffect_moves s
    · exact .refl
  | listenPeriodEnd => exact taken_moves (listenPeriodEndEffect_moves s) h
  | replyWindow => exact taken_moves (replyWindowEffect_moves (hE _ (.head _)) s) h
  | rotationSlot => exact taken_moves (rotationSlotEffect_moves (hE _ (.head _)) s) h
  | readbackMismatch => exact taken_moves (readbackMismatchEffect_moves s) h
  | abort =>
    exact taken_moves (abortEffect_moves (hE _ (.head _)) (hE _ (by decide)) (hE _ (by decide)) (hE _ (by decide)) s) h
  | completion => exact taken_moves (completionEffect_moves (hE _ (.head _)) (hE _ (by decide)) (hE _ (by decide)) s) h
  | refreshClaim => exact taken_moves (claimRefreshes_moves s) h
  | otherTargetFrame sender => exact taken_moves (renewFrame_moves (frameEffects_of_forall hE) sender s) h
  | frameFoundBroken finding => exact taken_moves (foundBrokenEffect_moves finding s) h

/-- A bit time neither starts nor ends a transmission. -/
theorem transmitterBit_idle_iff (s : State) : (transmitterBit s).1 = .idle ↔ s.transmitter = .idle := by
  unfold transmitterBit
  split
  · next h => simp [h]
  · next h =>
    split
    · split <;> simp [h]
    · simp [h]
  · next h => split <;> simp [h]

theorem bitTime_moves (hq : E .queue) (s : State) : Moves E s (bitTime s) := by
  have ha : s.accessTimer = none → (accessBit s).1 = none := fun h => by simp [accessBit, h]
  have hl : s.listen = none → (listenBit s).1 = none := fun h => by simp [listenBit, h]
  have h : Moves E s _ := .single (.bitsCounted (transmitterBit s).1 (accessBit s).1 (listenBit s).1
    (transmitterBit_idle_iff s) ha hl)
  exact (h.trans (Moves.outside (t := { s with
    transmitter := (transmitterBit s).1, accessTimer := (accessBit s).1, listen := (listenBit s).1
    receiver := receiverBit s, refclk := s.refclk + s.record.rate.periods }) rfl)).tail
    (.queueChanged (bitTime s).pending s.resetHeld hq)

theorem idle_moves (hq : E .queue) (s : State) : Moves E s (idle s) := by
  unfold idle
  split
  · exact .refl
  split
  · exact .single (.queueChanged _ s.resetHeld hq)
  split
  · exact bitTime_moves hq s
  · exact .single (.queueChanged _ s.resetHeld hq)

theorem step_moves {s t : State} (h : step s = .next t) : Moves (fun _ => True) s t := by
  unfold step at h
  split at h
  · next c rest _ =>
    have hpop : Moves (fun _ => True) s { s with pending := rest } := .single (.queueChanged rest s.resetHeld trivial)
    exact hpop.trans (exec_moves h fun _ _ => trivial)
  · obtain rfl := Host.Outcome.next.inj h
    exact idle_moves trivial s

/-! ### The invariants of the steps -/

/-- What every move keeps, every step keeps. -/
theorem step_keeps {P : State → Prop} (hP : ∀ s t : State, Move (fun _ => True) s t → P s → P t) {s t : State} (hs : P s)
    (h : step s = .next t) : P t := by
  have hmoves := step_moves h
  clear h
  induction hmoves with
  | refl => exact hs
  | tail _ hmove ih => exact hP _ _ hmove ih

/-- Settles O54: each of the three invariants is kept by every move, and a step is a chain of moves. -/
theorem collectionsKept : Obligations.CollectionsKept :=
  ⟨fun _ _ => step_keeps fun _ _ h => h.memorySound, fun _ _ => step_keeps fun _ _ h => h.notifyQueueSound,
    fun _ _ => step_keeps fun _ _ h => h.serviceSound⟩

/-- Settles O55, as O54. -/
theorem publicationKept : Obligations.PublicationKept :=
  ⟨fun _ _ => step_keeps fun _ _ h => h.spansSound, fun _ _ => step_keeps fun _ _ h => h.publishQueueSound,
    fun _ _ => step_keeps fun _ _ h => h.disputesSound⟩

/-- Settles O56: the four invariants together are kept by every move. -/
theorem requestsAndMirrorsKept : Obligations.RequestsAndMirrorsKept := by
  intro s t hrecord hmirrors hrequests hrefreshes h
  refine step_keeps (P := fun s => s.record.inRange = true ∧ MirrorsSound s ∧ RequestsSound s ∧ RefreshesSound s)
    (fun u v hmove => ?_) ⟨hrecord, hmirrors, hrequests, hrefreshes⟩ h
  rintro ⟨hrec, hmir, hreq, href⟩
  exact ⟨hmove.recordInRange hrec, hmove.mirrorsSound hmir, hmove.requestsSound hrec hreq, hmove.refreshesSound hmir hreq href⟩

/-- Settles O57, as O54. -/
theorem timersAndSetupKept : Obligations.TimersAndSetupKept :=
  ⟨fun _ _ => step_keeps fun _ _ h => h.channelsSound, fun _ _ => step_keeps fun _ _ h => h.presenceSound,
    fun _ _ => step_keeps fun _ _ h => h.setupQuiet⟩

/-- Settles O58: the peer table is kept by every move that starts from a station record in range. -/
theorem peersKept : Obligations.PeersKept := by
  intro s t hrecord hpeers h
  refine step_keeps (P := fun s => s.record.inRange = true ∧ PeersSound s) (fun u v hmove => ?_) ⟨hrecord, hpeers⟩ h
  rintro ⟨hrec, hp⟩
  exact ⟨hmove.recordInRange hrec, hmove.peersSound hrec hp⟩

/-- Settles O59, as O54. -/
theorem transmitKept : Obligations.TransmitKept := fun _ _ => step_keeps fun _ _ h => h.transmitSound

/-- The state after hardware reset has a clear page map, IDLE channels, an empty table and every peer ABSENT. -/
theorem reset_tables :
    (∀ c : ChannelNo, State.reset.channels[c] = Channel.reset) ∧ (∀ t : Tag, State.reset.table[t] = none) ∧
      ∀ x : Station, State.reset.peers[x] = PeerRecord.start := by
  simp [State.reset, PeerRecord.start]

/-- Settles O60: every collection is empty after hardware reset. -/
theorem resetIsSound : Obligations.ResetIsSound := by
  obtain ⟨hchannels, htable, hpeers⟩ := reset_tables
  have hrefresh : ∀ t : Tag, State.reset.refreshOf t = none := fun t => by simp only [State.refreshOf, htable t]; rfl
  have hvariant := reset_variant
  refine ⟨reset_memoryWf, ⟨Nat.zero_le _, List.nodup_nil, fun _ => rfl⟩,
    ⟨Nat.zero_le _, fun _ => rfl, Nat.zero_le _, List.nodup_nil, fun _ => rfl⟩, fun p => by rw [hvariant]; rfl, .of_nil rfl,
    .of_clear reset_disputed, by decide, fun p => by rw [hvariant]; rfl,
    ⟨List.nodup_nil, fun t => by rw [htable]; exact ⟨nofun, nofun⟩, fun t r hr => by rw [htable] at hr; cases hr⟩,
    ⟨fun p => ?_, fun t _ h => absurd (hrefresh t) h, fun t r hr => by rw [htable] at hr; cases hr⟩,
    fun c => by rw [hchannels]; exact ⟨by decide, fun _ => rfl, nofun⟩, fun _ => ⟨rfl, rfl, rfl⟩, ?_,
    ⟨fun x => by rw [hpeers]; rfl, by rw [hpeers]; rfl, fun _ x => by rw [hpeers]; rfl⟩, ?_⟩
  · rw [hvariant]
    refine ⟨nofun, fun ⟨t, ht⟩ => ?_⟩
    rw [hrefresh t] at ht; cases ht
  · exact fun _ => ⟨rfl, rfl, rfl, rfl, rfl, rfl, rfl, rfl, rfl, fun p => by rw [hvariant]; rfl⟩
  · exact .of_empty rfl rfl (Nat.zero_lt_succ _)

end Sys2Proof.Machine
end

section
/-! PROOF. The operations in the terms of the statements: what a queueing, a write into the store, an application to a mirror, the
end of requests and the entries to the station states leave, as the relations of Safety say it. -/

namespace Sys2Proof.Machine

/-! ### Effects of commands -/

/-- A change of the running station, by what it gives. -/
theorem next_of_effect {f : State → State} {s t : State} (hheld : s.resetHeld = false) (h : f s = t) :
    taken f s = .next t := h ▸ taken_of_running f hheld

/-! ### The publish queue (R24) -/

theorem Extent.join_eq (e x : Extent) : e.join x = if e = .span ∧ x = .span then .span else .full := by
  cases e <;> cases x <;> rfl

/-- The queue after one page after another of `l` has been put in it, where `sel` chooses it. -/
def mergeAll (sel : PageNo → Bool) (x : Extent) (l : List PageNo) (q : List (PageNo × Extent)) : List (PageNo × Extent) :=
  l.foldl (fun q p => if sel p then queueMerge q p x else q) q

theorem queueMerge_any (q : List (PageNo × Extent)) (p p' : PageNo) (x : Extent) :
    ((queueMerge q p x).any fun e => e.1 = p') = ((q.any fun e => e.1 = p') || decide (p = p')) := by
  unfold queueMerge
  split
  · next h =>
    rw [List.any_map]
    have hfst : ((fun e : PageNo × Extent => decide (e.1 = p')) ∘ fun e => if e.1 = p then (p, e.2.join x) else e) =
        fun e => decide (e.1 = p') := by
      funext e
      by_cases he : e.1 = p <;> simp [he]
    rw [hfst]
    by_cases hp : p = p'
    · rw [← hp, h]; rfl
    · simp [hp]
  · simp

/-- Pages put in the queue in the order of a list that names none twice: those there keep their places, the others follow. -/
theorem mergeAll_eq (sel : PageNo → Bool) (x : Extent) {l : List PageNo} (hl : l.Nodup) (q : List (PageNo × Extent)) :
    mergeAll sel x l q =
      (q.map fun e => if sel e.1 ∧ e.1 ∈ l then (e.1, if e.2 = .span ∧ x = .span then .span else .full) else e) ++
        (l.filter fun p => sel p && !(q.any fun e => e.1 = p)).map fun p => (p, x) := by
  induction l generalizing q with
  | nil => simp [mergeAll]
  | cons p l ih =>
    obtain ⟨hp, hl⟩ := List.nodup_cons.1 hl
    have hstep : mergeAll sel x (p :: l) q = mergeAll sel x l (if sel p then queueMerge q p x else q) := rfl
    rw [hstep]
    by_cases hs : sel p = true
    · rw [if_pos hs, ih hl]
      have htail : ∀ p' ∈ l, (sel p' && !((queueMerge q p x).any fun e => e.1 = p')) =
          (sel p' && !(q.any fun e => e.1 = p')) := fun p' hp' => by
        have hne : p ≠ p' := fun e => hp (e ▸ hp')
        rw [queueMerge_any, decide_eq_false hne, Bool.or_false]
      rw [List.filter_congr htail]
      by_cases hq : (q.any fun e => e.1 = p) = true
      · rw [queueMerge, if_pos hq, List.map_map, List.filter_cons_of_neg (by simp [hs, hq])]
        congr 1
        refine List.map_congr_left fun e _ => ?_
        by_cases he : e.1 = p
        · simp [he, hp, hs, Extent.join_eq]
        · simp [he]
      · rw [queueMerge, if_neg hq, List.filter_cons_of_pos (by simp [hs, hq])]
        have hmap : (q.map fun e => if sel e.1 = true ∧ e.1 ∈ l then
              (e.1, if e.2 = Extent.span ∧ x = Extent.span then Extent.span else Extent.full) else e) =
            q.map fun e => if sel e.1 = true ∧ e.1 ∈ p :: l then
              (e.1, if e.2 = Extent.span ∧ x = Extent.span then Extent.span else Extent.full) else e := by
          refine List.map_congr_left fun e he => ?_
          have hne : e.1 ≠ p := fun h => hq (List.any_eq_true.2 ⟨e, he, by simpa using h⟩)
          simp [hne]
        simp [hmap, hp]
    · rw [if_neg hs, ih hl, List.filter_cons_of_neg (by simp [hs])]
      congr 1
      refine List.map_congr_left fun e _ => ?_
      by_cases he : e.1 = p
      · simp [he, hs]
      · simp [he]

theorem mergeAll_finRange (sel : PageNo → Bool) (x : Extent) (q : List (PageNo × Extent)) :
    mergeAll sel x (List.finRange 64) q = queuedInOrder sel x q := by
  rw [mergeAll_eq sel x (List.nodup_finRange 64)]
  simp [queuedInOrder]

theorem mergeAll_singleton (p : PageNo) (x : Extent) (q : List (PageNo × Extent)) :
    mergeAll (fun p' => decide (p' = p)) x (List.finRange 64) q = queueMerge q p x := by
  have hfold : ∀ l : List PageNo, l.Nodup → mergeAll (fun p' => decide (p' = p)) x l q =
      if p ∈ l then queueMerge q p x else q := by
    intro l hl
    induction l generalizing q with
    | nil => rfl
    | cons p' l ih =>
      obtain ⟨hp', hl⟩ := List.nodup_cons.1 hl
      have hstep : mergeAll (fun p' => decide (p' = p)) x (p' :: l) q =
          mergeAll (fun p' => decide (p' = p)) x l (if decide (p' = p) then queueMerge q p' x else q) := rfl
      rw [hstep]
      by_cases h : p' = p
      · subst h
        rw [ih _ hl]; simp [hp']
      · rw [ih _ hl]; simp [h, Ne.symm h]
  rw [hfold _ (List.nodup_finRange 64), if_pos (List.mem_finRange p)]

/-- One page queued, in the words of R24. -/
theorem queueMerge_eq (q : List (PageNo × Extent)) (p : PageNo) (x : Extent) :
    queueMerge q p x = queuedInOrder (fun p' => p' = p) x q := by
  rw [← mergeAll_finRange, mergeAll_singleton]

theorem enqueue_station (x : Extent) (p : PageNo) (s : State) : (enqueue x p s).station = s.station := by
  rw [enqueue_only]

theorem enqueue_eligible (x : Extent) (p : PageNo) (s : State) : (enqueue x p s).eligible = s.eligible := by
  rw [enqueue_only]; rfl

/-- Every page that `sel` chooses queued, in the words of R24. -/
theorem enqueueAll_publishQueue {s : State} (hs : s.station = .active) (sel : PageNo → Bool) (x : Extent) :
    (enqueueAll sel x s).publishQueue = queuedInOrder (fun p => s.eligible p && sel p) x s.publishQueue := by
  have hfold : ∀ (l : List PageNo) (u : State), u.station = .active → u.eligible = s.eligible →
      (l.foldl (fun s p => if sel p then enqueue x p s else s) u).publishQueue =
        mergeAll (fun p => s.eligible p && sel p) x l u.publishQueue := by
    intro l
    induction l with
    | nil => exact fun u _ _ => rfl
    | cons p l ih =>
      intro u hu he
      have hstep : ∀ q, mergeAll (fun p => s.eligible p && sel p) x (p :: l) q =
          mergeAll (fun p => s.eligible p && sel p) x l (if s.eligible p && sel p then queueMerge q p x else q) :=
        fun _ => rfl
      rw [List.foldl_cons, hstep]
      by_cases hp : sel p = true
      · rw [if_pos hp, ih _ ((enqueue_station x p u).trans hu) ((enqueue_eligible x p u).trans he), enqueue_publishQueue, he]
        simp [hu, hp]
      · rw [if_neg hp, ih u hu he]
        simp [hp]
  rw [← mergeAll_finRange]
  exact hfold _ s hs rfl

theorem enqueueAll_eq {s : State} (hs : s.station = .active) (sel : PageNo → Bool) (x : Extent) :
    enqueueAll sel x s =
      { s with publishQueue := queuedInOrder (fun p => s.eligible p && sel p) x s.publishQueue } := by
  rw [enqueueAll_only, enqueueAll_publishQueue hs]

theorem publishAll_eq {s : State} (hs : s.station = .active) :
    publishAll s = { s with publishQueue := queuedInOrder s.eligible .full s.publishQueue } := by
  have h := enqueueAll_eq hs (fun _ => true) .full
  simp only [Bool.and_true] at h
  exact h

/-- An eligible page queued in ACTIVE (R24). -/
theorem enqueue_eq {s : State} (hs : s.station = .active) {p : PageNo} (hp : s.eligible p = true) (x : Extent) :
    enqueue x p s = { s with publishQueue := queuedInOrder (fun p' => p' = p) x s.publishQueue } := by
  rw [enqueue, if_pos ⟨hs, hp⟩, queueMerge_eq]

/-! ### Page memory and writes into the store (R16, R19 to R21) -/

theorem words_eq_map (s : State) (p : PageNo) (o n : Nat) :
    s.words p o n = (List.range n).map fun i => s.word p (o + i) := by
  refine List.ext_getElem (by simp [State.words]) fun i h₁ h₂ => ?_
  simp only [State.words] at h₁ ⊢
  rw [readCells_getElem _ _ _ _ h₁]
  simp [State.word, linear, Nat.add_assoc]

theorem policyAction_pages (p : PageNo) (policy : Policy) (s : State) : (policyAction p policy s).pages = s.pages := by
  rw [policyAction_only]

/-- The policy's action on the publish queue: an eligible ON_WRITE page is queued SPAN in ACTIVE (R21). -/
theorem policyAction_publishQueue {p : PageNo} {policy : Policy} {s : State} (hp : policy = .onWrite → s.eligible p = true) :
    (policyAction p policy s).publishQueue =
      if s.station = .active ∧ policy = .onWrite then queuedInOrder (fun q => q = p) .span s.publishQueue
      else s.publishQueue := by
  unfold policyAction
  by_cases hs : s.station = .active
  · rw [if_pos hs]
    cases policy with
    | onWrite => simp [hs, enqueue_eq hs (hp rfl)]
    | gather c => simp only [reduceCtorEq, and_false, if_false]; rw [signalChannel_only]
    | period c => simp
    | quiet => simp
  · simp [hs]

/-- A write signal to a channel, in the words of R43 to R45. -/
theorem signalChannel_channels (c c' : ChannelNo) (s : State) :
    (signalChannel c s).channels[c'] =
      if c' = c ∧ (s.channels[c'].kind = .gatherQuiet ∨ (s.channels[c'].kind = .gatherOnce ∧ s.channels[c'].run = none)) then
        { s.channels[c'] with run := some { pre := s.channels[c'].prescale, main := s.channels[c'].count, due := false } }
      else s.channels[c'] := by
  have hload : (loadChannel c s).channels[c'] = if c' = c then s.channels[c].load else s.channels[c'] := by
    rw [loadChannel_channels, channels_set_getElem]
  by_cases hc : c' = c
  · subst hc
    have hloaded : (loadChannel c' s).channels[c'] = { s.channels[c'] with
        run := some { pre := s.channels[c'].prescale, main := s.channels[c'].count, due := false } } :=
      hload.trans (if_pos rfl)
    unfold signalChannel
    split
    · next hk =>
      split
      · next hr => exact hloaded.trans (if_pos ⟨rfl, .inr ⟨hk, by simpa using hr⟩⟩).symm
      · next hr =>
        refine (if_neg ?_).symm
        rintro ⟨-, h | ⟨-, h⟩⟩
        · exact nomatch hk.symm.trans h
        · exact hr (by rw [h]; rfl)
    · next hk => exact hloaded.trans (if_pos ⟨rfl, .inl hk⟩).symm
    · next hk =>
      refine (if_neg ?_).symm
      rintro ⟨-, h | ⟨h, -⟩⟩ <;> exact nomatch hk.symm.trans h
  · have hsame : (signalChannel c s).channels[c'] = s.channels[c'] := by
      unfold signalChannel
      split
      · split
        · rw [hload, if_neg hc]
        · rfl
      · rw [hload, if_neg hc]
      · rfl
    rw [hsame, if_neg fun h => hc h.1]

/-- The policy's action on the channels: a GATHER page signals its channel in ACTIVE (R21). -/
theorem policyAction_channels (p : PageNo) (policy : Policy) (s : State) (c : ChannelNo) :
    (policyAction p policy s).channels[c] =
      if s.station = .active ∧ policy = .gather c ∧
          (s.channels[c].kind = .gatherQuiet ∨ (s.channels[c].kind = .gatherOnce ∧ s.channels[c].run = none)) then
        { s.channels[c] with run := some { pre := s.channels[c].prescale, main := s.channels[c].count, due := false } }
      else s.channels[c] := by
  unfold policyAction
  by_cases hs : s.station = .active
  · rw [if_pos hs]
    cases policy with
    | gather c' =>
      simp only [hs, true_and, Policy.gather.injEq]
      rw [signalChannel_channels]
      simp only [eq_comm]
    | onWrite =>
      simp only [reduceCtorEq, false_and, and_false, if_false]
      rw [enqueue_only]
    | period c' => simp
    | quiet => simp
  · simp [hs]

/-- A write into the store of an owned page that is not DISPUTED, as R19 to R21 give it. -/
theorem storeWrite_writesStore {s : State} (hmem : MemorySound s) {p : PageNo} {d : OwnDesc} {r : OwnRun}
    (hv : s.variant p = .own d r) (hd : s.disputed p = false) {o : Nat} {ws : List Word} (ho : o + ws.length ≤ 64) :
    WritesStore p o ws s (storeWrite p o ws s) := by
  obtain ⟨r', hr', hw⟩ : ∃ r' : OwnRun,
      r' = { version := r.version
             span :=
              if d.policy = .quiet then r.span
              else
                match r.span with
                | none => some { low := o, high := o + ws.length - 1 }
                | some sp => some { low := min sp.low o, high := max sp.high (o + ws.length - 1) } } ∧
      storeWrite p o ws s = policyAction p d.policy (setVariant p (.own d r') (putWords p o ws s)) := by
    refine ⟨_, rfl, ?_⟩
    unfold storeWrite
    rw [hv]
    by_cases hq : d.policy = .quiet
    · simp [hq]
    · simp only [hq, if_false]
      cases r.span <;> rfl
  have hpages : (storeWrite p o ws s).pages = (setVariant p (.own d r') (putWords p o ws s)).pages := by
    rw [hw, policyAction_pages]
  have hvar : ∀ q, (storeWrite p o ws s).variant q = if q = p then .own d r' else s.variant q := fun q =>
    (congrArg (fun v : Vector Page 64 => v[q].variant) hpages).trans (setVariant_variant p q _ (putWords p o ws s))
  have hdis : ∀ q, (storeWrite p o ws s).disputed q = s.disputed q := fun q =>
    (congrArg (fun v : Vector Page 64 => v[q].disputed) hpages).trans (setVariant_disputed p q _ (putWords p o ws s))
  refine ⟨storeWrite_memoryWf hmem ho, fun q x hx => ?_, fun q => ⟨hdis q, fun hq => by rw [hvar, if_neg hq]⟩,
    fun d₀ r₀ hv₀ => ?_, storeWrite_only p o ws s⟩
  · have hword : (storeWrite p o ws s).word q x = (putWords p o ws s).word q x := by
      simp only [State.word, storeWrite_memory, hv, PageVariant.isOwn, if_true, putWords_memory]
    rw [hword, putWords_word hmem ho q hx]
  · cases hv.symm.trans hv₀
    refine ⟨((hvar p).trans (if_pos rfl)).trans (congrArg (PageVariant.own d) hr'), ?_, fun c => ?_⟩
    · rw [hw, policyAction_publishQueue fun hp => ?_]
      · rfl
      · refine (eligible_iff _ p).2 ⟨d, r', setVariant_variant_same .., ?_, ?_⟩
        · rw [hp]; nofun
        · rw [setVariant_disputed]; exact hd
    · rw [hw, policyAction_channels]; rfl

/-! ### Words applied to a mirror (R56, R59) -/

theorem applyToMirror_applies {s : State} (hmem : MemorySound s) {p : PageNo} (d : MirrorDesc) {first : Nat}
    {ws : List Word} (hw : first + ws.length ≤ 64) (v : Byte) (st : MirrorState) (mark : RefreshMark) :
    AppliesToMirror p d first ws v st mark s (applyToMirror p d first ws v st mark s) := by
  obtain ⟨u, hu⟩ : ∃ u, u = setVariant p (.mirror d { state := st, last := some v, age := ageLoad d.ageLimit, mark := mark })
      (putWords p first ws s) := ⟨_, rfl⟩
  have happly : applyToMirror p d first ws v st mark s = notifyIf d.watch p u := by rw [hu]; rfl
  have hmemory : (notifyIf d.watch p u).memory = u.memory := by rw [notifyIf_only]
  have hpages : (notifyIf d.watch p u).pages = u.pages := by rw [notifyIf_only]
  have hvar : ∀ q, (notifyIf d.watch p u).variant q = u.variant q := fun q =>
    congrArg (fun v : Vector Page 64 => v[q].variant) hpages
  have hdis : ∀ q, (notifyIf d.watch p u).disputed q = u.disputed q := fun q =>
    congrArg (fun v : Vector Page 64 => v[q].disputed) hpages
  have hword : ∀ q x, (notifyIf d.watch p u).word q x = u.word q x := fun q x => by simp only [State.word, hmemory]
  rw [happly]
  refine ⟨?_, fun q x hx => ?_, fun q => ⟨?_, fun hq => ?_⟩, ?_, u, ?_, rfl⟩
  · rw [hmemory, hu]
    exact putWords_memoryWf hmem hw
  · rw [hword, hu]
    exact putWords_word hmem hw q hx
  · rw [hdis, hu, setVariant_disputed]; rfl
  · rw [hvar, hu, setVariant_variant, if_neg hq]; rfl
  · rw [hvar, hu, setVariant_variant_same]
    simp only [ageLoad, Counter.load, Config.ticksPerAge]
  · rw [hmemory, hpages, hu]; rfl

/-! ### Requests ended from outside (R87 to R92) -/

theorem endRequests_ends (sel : Request → Bool) (why : LocalReason) (s : State) :
    EndsRequests sel why s (endRequests sel why s) := by
  have hopen : ∀ u : Tag, s.openHit sel u = s.table[u].any fun r => r.isOpen && sel r := fun u => by
    unfold State.openHit; cases s.table[u] <;> rfl
  have hframed : ∀ u : Tag, s.framedHit sel u = s.table[u].any fun r => r.isOpen && sel r && r.isFramed := fun u => by
    unfold State.framedHit; cases s.table[u] <;> rfl
  have hhost : ∀ u : Tag, s.hostHit sel u = s.table[u].any fun r => r.isOpen && sel r && !r.isRefresh := fun u => by
    unfold State.hostHit; cases s.table[u] <;> rfl
  rw [endRequests_eq]
  refine ⟨fun u => ?_, ?_, ?_, ?_⟩
  · simp only [Fin.getElem_fin, mapTable_getElem]
    unfold endEntry
    rfl
  · simp only [hopen]
  · have hany : ((List.finRange 16).any fun t => s.hostHit sel t) = true ↔
        ∃ u : Tag, (s.table[u].any fun r => r.isOpen && sel r && !r.isRefresh) = true := by
      simp only [List.any_eq_true, List.mem_finRange, true_and, hhost]
    simp only [hany]
    rfl
  · cases s.buffer with
    | none => rfl
    | some f =>
      simp only [discarded, Option.bind_some]
      cases f.origin with
      | request t => simp only [endsFrame, hframed]
      | _ => rfl

/-- Ending requests changes no page. -/
theorem endRequests_pages (sel : Request → Bool) (why : LocalReason) (s : State) : (endRequests sel why s).pages = s.pages := by
  rw [endRequests_eq]

theorem endRequests_mapVariants_variant (sel : Request → Bool) (why : LocalReason) (f : PageNo → PageVariant → PageVariant)
    (s : State) (p : PageNo) : (endRequests sel why (mapVariants f s)).variant p = f p (s.variant p) :=
  (congrArg (fun v : Vector Page 64 => v[p].variant) (endRequests_pages sel why (mapVariants f s))).trans
    (mapVariants_variant f s p)

theorem endRequests_mapVariants_disputed (sel : Request → Bool) (why : LocalReason) (f : PageNo → PageVariant → PageVariant)
    (s : State) (p : PageNo) : (endRequests sel why (mapVariants f s)).disputed p = s.disputed p :=
  (congrArg (fun v : Vector Page 64 => v[p].disputed) (endRequests_pages sel why (mapVariants f s))).trans
    (mapVariants_disputed f s p)

/-- Requests ended after a change of the pages alone. -/
theorem endRequests_mapVariants_only (sel : Request → Bool) (why : LocalReason) (f : PageNo → PageVariant → PageVariant)
    (s : State) : RequestsAndPagesOnly s (endRequests sel why (mapVariants f s)) := by
  have h := endRequests_eq sel why (mapVariants f s)
  rw [mapVariants_only] at h ⊢
  generalize (mapVariants f s).pages = pages at h ⊢
  generalize endRequests sel why { s with pages := pages } = t at h ⊢
  subst h
  rfl

/-- The request unit does not read the pages. -/
theorem endRequests_mapVariants_ends (sel : Request → Bool) (why : LocalReason) (f : PageNo → PageVariant → PageVariant)
    (s : State) : EndsRequests sel why s (endRequests sel why (mapVariants f s)) := by
  have h := endRequests_ends sel why (mapVariants f s)
  rw [mapVariants_only] at h ⊢
  generalize (mapVariants f s).pages = pages at h ⊢
  generalize endRequests sel why { s with pages := pages } = t at h ⊢
  obtain ⟨htable, horder, hflags, hbuffer⟩ := h
  exact ⟨htable, horder, hflags, hbuffer⟩

theorem ownerLost_losesOwner (x : Station) (s : State) : LosesOwner x s (ownerLost x s) := by
  refine ⟨?_, fun p => ⟨endRequests_mapVariants_disputed .., ?_⟩, endRequests_mapVariants_only ..⟩
  · exact endRequests_mapVariants_ends ..
  · unfold ownerLost
    rw [endRequests_mapVariants_variant]
    cases s.variant p with
    | mirror d r =>
      simp only [MirrorRun.ownerLost]
      by_cases hx : d.owner = x
      · by_cases hst : r.state = .fresh ∨ r.state = .gapped
        · simp only [if_pos hx, if_pos hst]
        · simp only [if_pos hx, if_neg hst]
      · simp only [if_neg hx]
    | _ => rfl

/-- PENDING marks dropped and every request ended: what the entries to MUTED and LEAVING share (R61, R91, R92). -/
theorem endAll_drops (why : LocalReason) (s : State) :
    EndsRequests (fun _ => true) why s (endRequests (fun _ => true) why (dropPending s)) ∧
      DropsPending s (endRequests (fun _ => true) why (dropPending s)) ∧
      RequestsAndPagesOnly s (endRequests (fun _ => true) why (dropPending s)) := by
  refine ⟨?_, fun p => ⟨endRequests_mapVariants_disputed .., ?_⟩, endRequests_mapVariants_only ..⟩
  · exact endRequests_mapVariants_ends ..
  · refine (endRequests_mapVariants_variant ..).trans ?_
    cases s.variant p with
    | mirror d r =>
      obtain ⟨state, last, age, mark⟩ := r
      cases mark <;> rfl
    | _ => rfl

/-- The work of ACTIVE dropped: what LEAVE and the entry to MUTED share (R34, R48, R61, R91, R92, R98, R147). -/
def workDropped (why : LocalReason) (s : State) : State :=
  { clearMarks (clearPublishQueue (idleChannels (endRequests (fun _ => true) why (dropPending s)))) with replyQueue := [] }

theorem idleChannels_only (s : State) : idleChannels s = { s with channels := (idleChannels s).channels } := rfl

theorem idleChannels_getElem (s : State) (c : ChannelNo) :
    (idleChannels s).channels[c] = { s.channels[c] with run := none } := by simp [idleChannels]

theorem workDropped_drops (why : LocalReason) (s : State) : DropsWork why s (workDropped why s) := by
  obtain ⟨hends, hdrops, honly⟩ := endAll_drops why s
  have hidle := idleChannels_getElem (endRequests (fun _ => true) why (dropPending s))
  unfold workDropped
  generalize endRequests (fun _ => true) why (dropPending s) = u at hends hdrops honly hidle
  have hchannels : u.channels = s.channels := by rw [honly]
  rw [hchannels] at hidle
  rw [idleChannels_only]
  generalize (idleChannels u).channels = channels at hidle
  refine ⟨hends, hdrops, hidle, ?_⟩
  have honly : u = { s with table := u.table, sendOrder := u.sendOrder, flags := u.flags, buffer := u.buffer, pages := u.pages } :=
    honly
  generalize u.table = table, u.sendOrder = order, u.flags = flags, u.buffer = buffer, u.pages = pages at honly
  subst honly
  rfl

theorem enterLeaving_eq (s : State) : enterLeaving s = { workDropped .cancelled s with station := .leaving } := rfl

theorem enterMuted_enters {s : State} (hb : s.buffer.any (fun f => f.driven) = false) (why : MutedReason) :
    EntersMuted why s (enterMuted why s) := by
  refine ⟨workDropped .muted s, workDropped_drops .muted s, ?_⟩
  have hbuf : discarded (fun _ => true) (endRequests (fun _ => true) .muted (dropPending s)).buffer = none := by
    have : (endRequests (fun _ => true) .muted (dropPending s)).buffer =
        discarded (endsFrame (dropPending s) fun _ => true) s.buffer := by
      rw [endRequests_buffer_eq, dropPending, mapVariants_only]
    rw [this, discarded_discarded]
    cases h : s.buffer with
    | none => rfl
    | some f =>
      rw [h] at hb
      have hb : f.driven = false := hb
      simp [discarded, hb]
  unfold enterMuted workDropped
  generalize endRequests (fun _ => true) .muted (dropPending s) = u at hbuf
  simp only [discardFrame_eq, hbuf]
  rfl

theorem enterSetup_enters (s : State) : EntersSetup s (enterSetup s) := by
  refine ⟨fun p => ⟨enterSetup_disputed s p, ?_⟩, fun x => ?_, fun c => ?_, rfl⟩
  · rw [enterSetup_variant]; cases s.variant p <;> rfl
  · simp [enterSetup, PeerRecord.start]
  · simp [enterSetup]

theorem enterJoining_enters (cause : RecoveryCause) (s : State) : EntersJoining cause s (enterJoining cause s) := by
  refine ⟨fun p => ⟨enterJoining_disputed cause s p, ?_⟩, fun x => ?_, ?_⟩
  · rw [enterJoining_variant]; cases s.variant p <;> rfl
  · simp [enterJoining, PeerRecord.start]
  · unfold enterJoining; rw [mapVariants_only]

/-! ### The end of a good frame (R118, R165) -/

/-- A good frame of another station taken, as R118, R130, R132 and R165 give it. -/
def heard (x : Station) (window : Bool) (s : State) : State := renewPresence x (goodEnd (some x) window s)

theorem heard_hears (x : Station) (window : Bool) (s : State) : HearsFrom x window s (heard x window s) := by
  refine ⟨fun y => ?_, ?_⟩
  · exact renewPresence_peers x y _
  · unfold heard renewPresence
    split
    · next h =>
      have h : s.isPresent x = true := h
      rw [if_pos h]; rfl
    · next h =>
      have h : ¬ s.isPresent x = true := h
      rw [if_neg h]; rfl

theorem frameFrom_of_hears {x : Station} {s : State} (hx : x ≠ s.record.own) (hs : s.hears = true) (window : Bool)
    (f : State → State) : frameFrom x window f s = f (goodEnd (some x) window s) := by
  rw [frameFrom, if_neg hx, if_pos hs]

/-! ### The answers of the reply queue (R97, R100) -/

theorem pageOf_eq_some {b : Byte} {p : PageNo} (h : p.val = b.toNat) : pageOf b = some p := by
  rw [pageOf, dif_pos (by omega)]
  exact congrArg some (Fin.ext h.symm)

theorem pageOf_eq_none {b : Byte} (h : 63 < b.toNat) : pageOf b = none := dif_neg (by omega)

theorem answerFrame_of_answerIs {s : State} {e : ReplyEntry} {x : Station} {body : FrameBody} (h : AnswerIs s e x body) :
    answerFrame s e = s.frame (stationByte x) body := by
  rcases h with ⟨tag, issue, attempt, st, rfl, rfl⟩ | ⟨tag, issue, attempt, page, offset, count, rfl, h⟩
  · rfl
  · refine congrArg (s.frame (stationByte x)) ?_
    unfold replyBody
    rcases h with ⟨hp, rfl⟩ | ⟨p, hp, h⟩
    · simp only [pageOf_eq_none hp]; rfl
    · simp only [pageOf_eq_some hp]
      rcases h with ⟨hd, rfl⟩ | ⟨hd, ho, rfl⟩ | ⟨hd, d, r, hv, h⟩
      · rw [if_pos hd]; rfl
      · rw [if_neg (by rw [hd]; nofun)]
        cases hv : s.variant p with
        | own d r => rw [hv] at ho; cases ho
        | _ => rfl
      · rw [if_neg (by rw [hd]; nofun)]
        simp only [hv]
        rcases h with ⟨hc, rfl⟩ | ⟨hc, hr, rfl⟩
        · rw [if_pos (by rwa [byte_eq_zero_iff] at hc)]; rfl
        · rw [if_neg (by rw [Ne, byte_eq_zero_iff] at hc; simp only [Config.pageWords]; omega), words_eq_map]
          rfl

end Sys2Proof.Machine
end

section
/-! PROOF. The lifecycle commands and the resets: JOIN, LEAVE, REJOIN, SOFT_RESET, the ways into SETUP and MUTED. -/

namespace Sys2Proof.Machine

/-! ### The first of all pages or tags -/

/-- A number of a table stands behind the lower ones alone. -/
theorem finRange_split {n : Nat} (i : Fin n) :
    ∃ l₁ l₂, List.finRange n = l₁ ++ i :: l₂ ∧ ∀ j ∈ l₁, j < i := by
  obtain ⟨l₁, l₂, h⟩ := List.append_of_mem (List.mem_finRange i)
  refine ⟨l₁, l₂, h, fun j hj => ?_⟩
  have hsorted := List.pairwise_lt_finRange n
  rw [h] at hsorted
  exact (List.pairwise_append.1 hsorted).2.2 j hj i (.head _)

theorem findSome?_finRange {n : Nat} {β : Type} {f : Fin n → Option β} {i : Fin n} {b : β} (hi : f i = some b)
    (hlt : ∀ j, j < i → f j = none) : (List.finRange n).findSome? f = some b := by
  obtain ⟨l₁, l₂, h, hl⟩ := finRange_split i
  have hnone : l₁.findSome? f = none := List.findSome?_eq_none_iff.2 fun j hj => hlt j (hl j hj)
  rw [h, List.findSome?_append, hnone, List.findSome?_cons, hi]
  rfl

theorem find?_finRange {n : Nat} {P : Fin n → Bool} {i : Fin n} (hi : P i = true) (hlt : ∀ j, j < i → P j = false) :
    (List.finRange n).find? P = some i := by
  obtain ⟨l₁, l₂, h, hl⟩ := finRange_split i
  have hnone : l₁.find? P = none := List.find?_eq_none.2 fun j hj => by simp [hlt j (hl j hj)]
  rw [h, List.find?_append, hnone, List.find?_cons_of_pos hi]
  rfl

theorem lowestFree_of_first {table : Vector (Option Request) 16} {t : Tag} (ht : table[t] = none)
    (hlt : ∀ u : Tag, u < t → table[u] ≠ none) : lowestFree table = some t :=
  find?_finRange (by rw [ht]; rfl) fun u hu => Option.isNone_eq_false_iff.2 (Option.isSome_iff_ne_none.2 (hlt u hu))

theorem lowestFree_of_full {table : Vector (Option Request) 16} (h : ∀ t : Tag, table[t] ≠ none) :
    lowestFree table = none :=
  List.find?_eq_none.2 fun t _ => by simpa using h t

/-! ### JOIN (R18, R153) -/

theorem pageError_eq_some_iff (s : State) (p : PageNo) (e : ConfigError) :
    pageError s.record s.channels (s.variant p) = some e ↔ PageRefused s p e := by
  unfold PageRefused
  cases hv : s.variant p with
  | none => simp [pageError, PageVariant.peerOwner]
  | own d r =>
    cases hp : d.policy with
    | gather c => cases hk : s.channels[c].kind <;> cases e <;> simp_all [pageError, PageVariant.peerOwner]
    | period c => cases hk : s.channels[c].kind <;> cases e <;> simp_all [pageError, PageVariant.peerOwner]
    | onWrite => simp [pageError, PageVariant.peerOwner, hp]
    | quiet => simp [pageError, PageVariant.peerOwner, hp]
  | mirror d r => by_cases h : s.record.ring ≤ d.owner.val ∨ d.owner = s.record.own <;> simp [pageError, PageVariant.peerOwner, h, eq_comm]
  | fetch d => by_cases h : s.record.ring ≤ d.owner.val ∨ d.owner = s.record.own <;> simp [pageError, PageVariant.peerOwner, h, eq_comm]

theorem joinError_of_badStation {s : State} (h : s.record.ring ≤ s.record.own.val) : joinError s = some .badStation :=
  if_pos h

theorem joinError_of_refused {s : State} (h : s.record.own.val < s.record.ring) {p : PageNo} {e : ConfigError}
    (hp : PageRefused s p e) (hlt : ∀ q, q < p → ∀ e', ¬ PageRefused s q e') : joinError s = some e := by
  unfold joinError
  rw [if_neg (Nat.not_le.2 h)]
  refine findSome?_finRange ((pageError_eq_some_iff s p e).2 hp) fun q hq => Option.eq_none_iff_forall_ne_some.2 fun e' he => ?_
  exact hlt q hq e' ((pageError_eq_some_iff s q e').1 he)

theorem joinError_of_accepted {s : State} (h : s.record.own.val < s.record.ring) (hp : ∀ p e, ¬ PageRefused s p e) :
    joinError s = none := by
  unfold joinError
  rw [if_neg (Nat.not_le.2 h)]
  refine List.findSome?_eq_none_iff.2 fun q _ => Option.eq_none_iff_forall_ne_some.2 fun e he => ?_
  exact hp q e ((pageError_eq_some_iff s q e).1 he)

theorem joinEffect_of_error {s : State} (hs : s.station = .setup) {e : ConfigError} (he : joinError s = some e) :
    joinEffect s = { s with configError := e, flags := s.flags ||| 0x08#8, response := [0x11#8] } := by
  unfold joinEffect
  rw [if_pos hs, he]
  rfl

/-- Settles O8: JOIN's checks are the first page error of the map, and a JOIN that passes is an entry to JOINING. -/
theorem joinChecks : Obligations.JoinChecks := by
  intro s hheld
  refine ⟨fun hs => next_of_effect hheld (if_neg hs), fun hs h => ?_, fun hs h p e hp hlt => ?_, fun hs h hp => ?_⟩
  · exact next_of_effect hheld (joinEffect_of_error hs (joinError_of_badStation h))
  · exact next_of_effect hheld (joinEffect_of_error hs (joinError_of_refused h hp hlt))
  · refine ⟨_, enterJoining_enters .joining _, next_of_effect hheld ?_⟩
    unfold joinEffect
    rw [if_pos hs, joinError_of_accepted h hp]
    rfl

/-! ### Entries to MUTED and LEAVING (R157, R159) -/

/-- What the work of ACTIVE leaves does not depend on the frame in the buffer, the abort count or the listen count. -/
theorem workDropped_congr (why : LocalReason) (s : State) (b : Option TxFrame) (n : Nat) (l : Option Nat) :
    workDropped why { s with buffer := b, abortCount := n, listen := l } =
      { workDropped why s with buffer := discarded (endsFrame s fun _ => true) b, abortCount := n, listen := l } := by
  have hpages : ∀ u : State, dropPending u = { u with pages := (dropPending u).pages } := fun _ => rfl
  have hsame : (dropPending { s with buffer := b, abortCount := n, listen := l }).pages = (dropPending s).pages := rfl
  unfold workDropped
  rw [hpages, hsame, hpages s]
  generalize (dropPending s).pages = pages
  rw [endRequests_eq, endRequests_eq]
  rfl

theorem enterMuted_eq {s : State} (hb : s.buffer.any (fun f => f.driven) = false) (why : MutedReason) :
    enterMuted why s = { workDropped .muted s with
      station := .muted, mutedReason := why, flags := (workDropped .muted s).flags ||| 0x02#8, buffer := none
      abortCount := 0, listen := none } := by
  obtain ⟨u, hu⟩ : ∃ u, u = endRequests (fun _ => true) .muted (dropPending s) := ⟨_, rfl⟩
  have hbuf : discarded (fun _ => true) u.buffer = none := by
    rw [hu, endRequests_buffer_eq, dropPending, mapVariants_only, discarded_discarded]
    cases h : s.buffer with
    | none => rfl
    | some f =>
      rw [h] at hb
      have hb : f.driven = false := hb
      simp [discarded, hb]
  unfold enterMuted workDropped
  rw [← hu]
  simp only [discardFrame_eq, hbuf]
  rfl

/-- Entry to MUTED after a change of the buffer, the abort count and the listen count alone. -/
theorem enterMuted_enters_of {s : State} {b : Option TxFrame} (hb : b.any (fun f => f.driven) = false) (n : Nat)
    (l : Option Nat) (why : MutedReason) :
    EntersMuted why s (enterMuted why { s with buffer := b, abortCount := n, listen := l }) := by
  refine ⟨workDropped .muted s, workDropped_drops .muted s, ?_⟩
  rw [enterMuted_eq hb, workDropped_congr]

/-- With the transmitter IDLE no frame is being driven. -/
theorem not_driven_of_idle {s : State} (h : TransmitSound s) (ht : s.transmitter = .idle) :
    s.buffer.any (fun f => f.driven) = false :=
  Bool.eq_false_iff.2 fun e => h.2.1.2 e ht

theorem duplicateFound_of_muting {s : State} (hs : s.station = .joining ∨ s.station = .active ∨ s.station = .leaving) :
    duplicateFound s = enterMuted .duplicateStation s := by
  unfold duplicateFound
  rcases hs with h | h | h <;> rw [h]

theorem duplicateFound_of_muted {s : State} (hs : s.station = .muted) :
    duplicateFound s = setFlag .muted { s with mutedReason := .duplicateStation } := by
  unfold duplicateFound
  split
  · rfl
  · next h => exact nomatch hs.symm.trans h
  · next h _ => exact absurd hs h

theorem exec_duplicateStationFrame {s : State} (hheld : s.resetHeld = false) (htwin : s.findsTwin = true) :
    exec .duplicateStationFrame s = .next (duplicateFound (goodEnd (some s.record.own) false s)) :=
  next_of_effect hheld (by rw [frameFrom, if_pos rfl, if_pos htwin])

theorem abortEffect_of_eighth {s : State} {n : Nat} (ht : s.transmitter = .jamming n) (hn : s.abortCount = 7) :
    abortEffect s =
      eighthAbort { foundBroken 0 s with transmitter := .idle, buffer := s.buffer.bind afterAbort, abortCount := 0 } := by
  unfold abortEffect
  rw [ht, hn]
  rfl

theorem afterAbort_not_driven (b : Option TxFrame) : (b.bind afterAbort).any (fun f => f.driven) = false := by
  cases b with
  | none => rfl
  | some f => cases hd : f.discard <;> simp [afterAbort, hd]

/-- Settles O13: the two ways into MUTED drop the work of the session, and a duplicate in MUTED renews the reason. -/
theorem entryToMuted : Obligations.EntryToMuted := by
  intro s hheld
  refine ⟨fun hs htwin hsound => ?_, fun hs htwin => ?_, fun hs n ht hn => ?_⟩
  · obtain ⟨-, ht, -⟩ := (findsTwin_iff s).1 htwin
    have hb : (goodEnd (some s.record.own) false s).buffer.any (fun f => f.driven) = false := not_driven_of_idle hsound ht
    refine ⟨_, enterMuted_enters hb .duplicateStation, ?_⟩
    rw [exec_duplicateStationFrame hheld htwin, duplicateFound_of_muting (s := goodEnd _ _ s) hs]
  · rw [exec_duplicateStationFrame hheld htwin]
    exact congrArg _ (duplicateFound_of_muted (s := goodEnd _ _ s) hs)
  · refine ⟨_, enterMuted_enters_of (afterAbort_not_driven s.buffer) 0 (s.listen.map fun _ => 0) .aborts,
      next_of_effect hheld ?_⟩
    rw [abortEffect_of_eighth ht hn]
    unfold eighthAbort
    rcases hs with hs | hs <;> (rw [show (foundBroken 0 s).station = _ from hs]; rfl)

theorem leaveEffect_of_active {s : State} (hs : s.station = .active) :
    leaveEffect s = respond .ok [] (enterLeaving s) := by
  unfold leaveEffect; rw [hs]

theorem leaveEffect_of_muted {s : State} (hs : s.station = .muted) :
    leaveEffect s = respond .ok [] (setFlag .left (enterSetup s)) := by
  unfold leaveEffect; rw [hs]

theorem leaveEffect_of_refused {s : State} (ha : s.station ≠ .active) (hm : s.station ≠ .muted) :
    leaveEffect s = respond .wrongState [] s := by
  unfold leaveEffect
  split
  · next h => exact absurd h ha
  · next h => exact absurd h hm
  · rfl

theorem rejoinEffect_of_muted {s : State} (hs : s.station = .muted) :
    rejoinEffect s = respond .ok [] (enterJoining .rejoined s) := by
  unfold rejoinEffect; rw [hs]

theorem rejoinEffect_of_refused {s : State} (hs : s.station ≠ .muted) : rejoinEffect s = respond .wrongState [] s := by
  unfold rejoinEffect
  split
  · next h => exact absurd h hs
  · rfl

/-- Settles O10: LEAVE in ACTIVE drops the work of the session and keeps a held frame that is no request frame. -/
theorem leaveFromActive : Obligations.LeaveFromActive := by
  intro s hheld
  refine ⟨fun hs => next_of_effect hheld ?_, fun hs => ⟨_, workDropped_drops .cancelled s, next_of_effect hheld ?_⟩⟩
  · exact leaveEffect_of_refused (by rcases hs with h | h | h <;> rw [h] <;> nofun) (by rcases hs with h | h | h <;> rw [h] <;> nofun)
  · exact (leaveEffect_of_active hs).trans rfl

/-- A duplicate-station frame taken just after an entry to JOINING by REJOIN mutes the station again (R158). -/
theorem duplicate_after_rejoin {s : State} {n : Nat} (hheld : s.resetHeld = false) (hs : s.station = .joining)
    (ht : s.transmitter = .idle) (hr : s.receiver = .recovering .rejoined n) (hb : s.buffer = none) :
    ∃ u, EntersMuted .duplicateStation (goodEnd (some s.record.own) false s) u ∧ exec .duplicateStationFrame s = .next u := by
  have htwin : s.findsTwin = true := (findsTwin_iff s).2 ⟨by rw [hs]; nofun, ht, fun cause m h => by
    cases hr.symm.trans h; rfl⟩
  have hbuf : (goodEnd (some s.record.own) false s).buffer.any (fun f => f.driven) = false := by
    rw [goodEnd_buffer, hb]; rfl
  refine ⟨_, enterMuted_enters hbuf .duplicateStation, ?_⟩
  rw [exec_duplicateStationFrame hheld htwin, duplicateFound_of_muting (s := goodEnd _ _ s) (.inl hs)]

/-- Settles O9: REJOIN is an entry to JOINING whose receiver still finds the own number. -/
theorem rejoinFromMuted : Obligations.RejoinFromMuted := by
  intro s hheld
  refine ⟨fun hs => next_of_effect hheld (rejoinEffect_of_refused hs), fun hs =>
    ⟨_, enterJoining_enters .rejoined s, next_of_effect hheld (rejoinEffect_of_muted hs), fun ht => ?_⟩⟩
  obtain ⟨-, -, hentry⟩ := enterJoining_enters .rejoined s
  generalize enterJoining .rejoined s = t at hentry
  have hrecord : t.record = s.record := by rw [hentry]
  obtain ⟨u, hu, hexec⟩ := duplicate_after_rejoin (s := { t with response := [0x00#8] }) (n := 0) (by rw [hentry]; exact hheld)
    (by rw [hentry]) (by rw [hentry]; exact ht) (by rw [hentry]) (by rw [hentry])
  refine ⟨u, ?_, hexec⟩
  have hend : goodEnd (some t.record.own) false { t with response := [0x00#8] } =
      { t with response := [0x00#8], receiver := .resting, view := some s.record.own, accessTimer := some 0,
               listen := none, windowOpen := false } := by rw [hrecord]; rfl
  exact hend ▸ hu

/-! ### Entries to SETUP and the resets (R161 to R163) -/

/-- Settles O11: each way in is an entry to SETUP, which leaves nothing of what the way itself changed. -/
theorem entryToSetup : Obligations.EntryToSetup := by
  intro s hheld
  refine ⟨fun hs => ⟨_, enterSetup_enters s, next_of_effect hheld ?_⟩,
    fun hs n f ht hf ho => ⟨_, enterSetup_enters s, next_of_effect hheld ?_⟩,
    fun hs n ht hn => ⟨_, enterSetup_enters s, next_of_effect hheld ?_⟩,
    fun hs hh x j ring silence owned hx hr => ⟨_, enterSetup_enters s, next_of_effect hheld ?_⟩⟩
  · exact leaveEffect_of_muted hs
  · unfold completionEffect
    rw [ht, hf]
    simp only [ho, completionTold]
    rw [if_pos (show (frameSent s).station = .leaving from hs)]
    rfl
  · rw [abortEffect_of_eighth ht hn]
    unfold eighthAbort
    rw [show (foundBroken 0 s).station = _ from hs]
    rfl
  · rw [frameFrom_of_hears hx hh]
    unfold takeAnnounce
    rw [if_pos (show ring.toNat ≠ (goodEnd (some x) false s).record.ring from hr),
      if_pos (show (goodEnd (some x) false s).station = .joining from hs)]
    rfl

/-- Settles O12: soft reset is an entry to SETUP with the request table, flags, counters, error and reason cleared. -/
theorem softResetEffect_of_running : Obligations.SoftResetEffect := by
  intro s hheld
  refine ⟨enterSetup s, softResetEffect s, enterSetup_enters s, next_of_effect hheld rfl, fun r => ?_,
    intnLow_eq_false rfl rfl, rfl⟩
  simp [softResetEffect]

theorem taken_of_held (f : State → State) {s : State} (h : s.resetHeld = true) : taken f s = .next s := by
  rw [taken_eq, if_pos h]

/-- While RESETn is low every row but its two edges leaves the state (R163). -/
theorem exec_of_held {c : Instr} {s : State} (h : s.resetHeld = true) (hr : c ≠ .hardwareReset) (hl : c ≠ .resetRelease) :
    exec c s = .next s := by
  cases c with
  | hardwareReset => exact absurd rfl hr
  | resetRelease => exact absurd rfl hl
  | transactionDiscarded t => rfl
  | _ => exact taken_of_held _ h

theorem mapTable_replicate {α : Type} {n : Nat} {f : Fin n → α → α} {a : α} (h : ∀ i, f i a = a) :
    mapTable f (Vector.replicate n a) = Vector.replicate n a := by
  refine Vector.ext fun i hi => ?_
  simp [h]

/-- SOFT_RESET after hardware reset changes nothing but the response. -/
theorem softResetEffect_reset (pending : List Instr) :
    softResetEffect { State.reset with pending := pending } = { State.reset with pending := pending, response := [0x00#8] } := by
  have hpages : mapTable (fun _ pg => { variant := pg.variant.restarted, disputed := false }) State.reset.pages =
      State.reset.pages := mapTable_replicate fun _ => rfl
  have hchannels : mapTable (fun _ c => { c with run := none }) State.reset.channels = State.reset.channels :=
    mapTable_replicate fun _ => rfl
  unfold softResetEffect enterSetup
  simp only [hpages, hchannels]
  rfl

/-- Settles O3: the reset state read field by field, and what the two edges of RESETn do to it. -/
theorem hardwareResetValues : Obligations.HardwareResetValues := by
  intro s
  refine ⟨_, _, rfl, rfl, rfl, rfl, intnLow_eq_false rfl rfl, fun c hr hl => exec_of_held rfl hr hl, rfl, rfl, rfl, rfl, rfl, rfl,
    rfl, intnLow_eq_false rfl rfl, fun p => ⟨reset_variant p, reset_disputed p⟩, fun p o => rfl, fun c => ?_, rfl, fun r => ?_,
    rfl, rfl, rfl, ?_⟩
  · simp [State.reset, Channel.reset]
  · simp [State.reset]
  · exact next_of_effect rfl (softResetEffect_reset s.pending)

end Sys2Proof.Machine
end

section
/-! PROOF. The configuration, data and reporting commands of the host port, and what holds of every command: it answers a next
state, keeps the queue of waiting commands, and leaves the mask. -/

namespace Sys2Proof.Machine

/-! ### Every command -/

theorem taken_answers_next (f : State → State) (s : State) : ∃ t, taken f s = .next t := ⟨_, taken_eq f s⟩

theorem exec_answers_next (c : Instr) (s : State) : ∃ t, exec c s = .next t := by
  cases c with
  | hardwareReset => exact ⟨_, rfl⟩
  | resetRelease => exact ⟨_, rfl⟩
  | transactionDiscarded t => exact ⟨_, rfl⟩
  | _ => exact taken_answers_next _ s

/-- No move but a change of the queue or a hardware reset touches the queue. -/
theorem Move.pending_eq {E : Effect → Prop} {s t : State} (h : Move E s t) (hq : ¬ E .queue) (hr : ¬ E .reset) :
    t.pending = s.pending := by
  cases h with
  | queueChanged => exact absurd ‹_› hq
  | hardwareReset => exact absurd ‹_› hr
  | _ => simp [enterSetup, enterJoining]

/-- No move but SET_MASK and hardware reset changes the mask. -/
theorem Move.mask_eq {E : Effect → Prop} {s t : State} (h : Move E s t) (hm : ¬ E .mask) (hr : ¬ E .reset) :
    t.mask = s.mask ∧ t.notifyEnable = s.notifyEnable := by
  cases h with
  | maskSet => exact absurd ‹_› hm
  | hardwareReset => exact absurd ‹_› hr
  | _ => simp [enterSetup, enterJoining]

/-- What no move of a chain changes stands at its end as at its beginning. -/
theorem Moves.field_eq {α : Type} {E : Effect → Prop} {F : State → α} (hF : ∀ s t, Move E s t → F t = F s) {s t : State}
    (h : Moves E s t) : F t = F s := by
  induction h with
  | refl => rfl
  | tail _ hmove ih => exact (hF _ _ hmove).trans ih

theorem rowEffects_queue {c : Instr} (hr : c ≠ .hardwareReset) (hl : c ≠ .resetRelease) :
    .queue ∉ rowEffects c ∧ .reset ∉ rowEffects c := by
  cases c with
  | hardwareReset => exact absurd rfl hr
  | resetRelease => exact absurd rfl hl
  | _ => exact ⟨of_decide_eq_false rfl, of_decide_eq_false rfl⟩

/-- Settles O2: the rows but the two resets are chains of moves that leave the queue. -/
theorem everyCommandAnswersNext : Obligations.EveryCommandAnswersNext := by
  intro c s
  obtain ⟨t, ht⟩ := exec_answers_next c s
  refine ⟨t, ht, ?_, fun hheld hr hl => ?_⟩
  · by_cases hr : c = .hardwareReset
    · subst hr
      obtain rfl := Host.Outcome.next.inj ht
      rfl
    by_cases hl : c = .resetRelease
    · subst hl
      obtain rfl := Host.Outcome.next.inj ht
      split <;> rfl
    · obtain ⟨hq, hres⟩ := rowEffects_queue hr hl
      exact (exec_moves ht fun _ he => he).field_eq (F := State.pending) fun _ _ h => h.pending_eq hq hres
  · exact Host.Outcome.next.inj (ht.symm.trans (exec_of_held hheld hr hl))

theorem rowEffects_mask {c : Instr} (hm : ∀ f g, c ≠ .setMask f g) : .mask ∉ rowEffects c := by
  cases c with
  | setMask f g => exact absurd rfl (hm f g)
  | _ => exact of_decide_eq_false rfl

/-- Settles O7: no row but SET_MASK and hardware reset has the mask among its effects. -/
theorem maskChanges : Obligations.MaskChanges := by
  refine ⟨fun flags second s hheld => next_of_effect hheld rfl, fun c s t h => ⟨fun hc => ?_, fun hm hr => ?_⟩⟩
  · subst hc
    obtain rfl := Host.Outcome.next.inj h
    exact ⟨rfl, rfl⟩
  · by_cases hl : c = .resetRelease
    · subst hl
      obtain rfl := Host.Outcome.next.inj h
      split <;> exact ⟨rfl, rfl⟩
    · have hkeeps := fun u v hmove => Move.mask_eq (s := u) (t := v) hmove (rowEffects_mask hm) (rowEffects_queue hr hl).2
      have hmoves := exec_moves h fun _ he => he
      exact ⟨hmoves.field_eq (F := State.mask) fun u v hmove => (hkeeps u v hmove).1,
        hmoves.field_eq (F := State.notifyEnable) fun u v hmove => (hkeeps u v hmove).2⟩

/-! ### Argument bytes -/

theorem tagOf_eq_some {b : Byte} {t : Tag} (h : t.val = b.toNat) : tagOf b = some t := by
  rw [tagOf, dif_pos (by omega)]
  exact congrArg some (Fin.ext h.symm)

theorem tagOf_eq_none {b : Byte} (h : 15 < b.toNat) : tagOf b = none := dif_neg (by omega)

theorem byte_ne_of_lt {b c : Byte} (h : c.toNat < b.toNat) : b ≠ c := by rintro rfl; omega

theorem yesNoOf_eq_some {b : Byte} {w : Bool} (h : (b = 0 ∧ w = false) ∨ (b = 1 ∧ w = true)) : yesNoOf b = some w := by
  rcases h with ⟨rfl, rfl⟩ | ⟨rfl, rfl⟩ <;> rfl

theorem yesNoOf_eq_none {b : Byte} (h : 1 < b.toNat) : yesNoOf b = none := by
  rw [yesNoOf, if_neg (byte_ne_of_lt (c := 0) (Nat.zero_lt_of_lt h)), if_neg (byte_ne_of_lt (c := 1) h)]

theorem remoteWritesOf_eq_some {b : Byte} {r : RemoteWrites} (h : (b = 0 ∧ r = .accept) ∨ (b = 1 ∧ r = .refuse)) :
    remoteWritesOf b = some r := by
  rcases h with ⟨rfl, rfl⟩ | ⟨rfl, rfl⟩ <;> rfl

theorem remoteWritesOf_eq_none {b : Byte} (h : 1 < b.toNat) : remoteWritesOf b = none := by
  rw [remoteWritesOf, if_neg (byte_ne_of_lt (c := 0) (Nat.zero_lt_of_lt h)), if_neg (byte_ne_of_lt (c := 1) h)]

theorem writeRouteOf_eq_some {b : Byte} {r : WriteRoute} (h : (b = 0 ∧ r = .send) ∨ (b = 1 ∧ r = .deny)) :
    writeRouteOf b = some r := by
  rcases h with ⟨rfl, rfl⟩ | ⟨rfl, rfl⟩ <;> rfl

theorem writeRouteOf_eq_none {b : Byte} (h : 1 < b.toNat) : writeRouteOf b = none := by
  rw [writeRouteOf, if_neg (byte_ne_of_lt (c := 0) (Nat.zero_lt_of_lt h)), if_neg (byte_ne_of_lt (c := 1) h)]

theorem policyOf_eq_some {pol chan : Byte} {P : Policy}
    (h : (pol = 0 ∧ P = .onWrite) ∨ (pol = 1 ∧ ∃ c : ChannelNo, c.val = chan.toNat ∧ P = .gather c) ∨
      (pol = 2 ∧ ∃ c : ChannelNo, c.val = chan.toNat ∧ P = .period c) ∨ (pol = 3 ∧ P = .quiet)) :
    policyOf pol chan = some P := by
  rcases h with ⟨rfl, rfl⟩ | ⟨rfl, c, hc, rfl⟩ | ⟨rfl, c, hc, rfl⟩ | ⟨rfl, rfl⟩
  · rfl
  · exact (congrArg (Option.map Policy.gather) (channelOf_eq_some hc) : _)
  · exact (congrArg (Option.map Policy.period) (channelOf_eq_some hc) : _)
  · rfl

theorem policyOf_eq_none {pol chan : Byte} (h : 3 < pol.toNat ∨ ((pol = 1 ∨ pol = 2) ∧ 7 < chan.toNat)) :
    policyOf pol chan = none := by
  rcases h with h | ⟨rfl | rfl, hc⟩
  · have hne (c : Byte) (hc : c.toNat ≤ 3) : pol ≠ c := byte_ne_of_lt (by omega)
    rw [policyOf, if_neg (hne 0 (by decide)), if_neg (hne 1 (by decide)), if_neg (hne 2 (by decide)),
      if_neg (hne 3 (by decide))]
  · exact (congrArg (Option.map Policy.gather) (channelOf_eq_none hc) : _)
  · exact (congrArg (Option.map Policy.period) (channelOf_eq_none hc) : _)

theorem accessOf_of_inRange {page offset count : Byte} {p : PageNo} (hp : p.val = page.toNat) (ho : offset.toNat ≤ 63)
    (h1 : 1 ≤ count.toNat) (h16 : count.toNat ≤ 16) (hend : offset.toNat + count.toNat ≤ 64) :
    accessOf page offset count = some { page := p, offset := offset.toNat, count := count.toNat } :=
  accessOf_eq_some.2 ⟨hp, rfl, rfl, by omega, h1, h16, hend⟩

theorem accessOf_of_outOfRange {page offset count : Byte}
    (h : 63 < page.toNat ∨ 63 < offset.toNat ∨ count = 0 ∨ 16 < count.toNat ∨ 64 < offset.toNat + count.toNat) :
    accessOf page offset count = none := by
  rw [byte_eq_zero_iff] at h
  refine Option.eq_none_iff_forall_ne_some.2 fun a ha => ?_
  obtain ⟨hp, -, -, ho, h1, h16, hend⟩ := accessOf_eq_some.1 ha
  have := a.page.isLt
  omega

/-! ### SET_PAGE (R6, R176) -/

theorem variantOf_self {pol chan remote watch : Byte} {P : Policy} {R : RemoteWrites} {W : Bool}
    (hp : policyOf pol chan = some P) (hr : remoteWritesOf remote = some R) (hw : yesNoOf watch = some W) :
    variantOf (.self pol chan remote watch) =
      some (.own { policy := P, remoteWrites := R, watch := W } { version := 0, span := none }) := by
  simp only [variantOf, hp, hr, hw]
  rfl

theorem variantOf_self_none {pol chan remote watch : Byte}
    (h : policyOf pol chan = none ∨ remoteWritesOf remote = none ∨ yesNoOf watch = none) :
    variantOf (.self pol chan remote watch) = none := by
  simp only [variantOf]
  split
  · next hp hr hw =>
    rcases h with h | h | h
    · exact nomatch h.symm.trans hp
    · exact nomatch h.symm.trans hr
    · exact nomatch h.symm.trans hw
  · rfl

theorem variantOf_peer_none {x : Station} {rr wr age watch : Byte}
    (h : 1 < rr.toNat ∨ writeRouteOf wr = none ∨ yesNoOf watch = none) : variantOf (.peer x rr wr age watch) = none := by
  simp only [variantOf]
  split
  · next hr hw =>
    rcases h with h | h | h
    · rw [if_neg (byte_ne_of_lt (c := 0) (Nat.zero_lt_of_lt h)), if_neg (byte_ne_of_lt (c := 1) h)]
    · exact nomatch h.symm.trans hr
    · exact nomatch h.symm.trans hw
  · rfl

theorem exec_setPage_of_some {page : Byte} {args : PageArgs} {s : State} {p : PageNo} {v : PageVariant}
    (hheld : s.resetHeld = false) (hs : s.station = .setup) (hp : p.val = page.toNat) (hv : variantOf args = some v) :
    exec (.setPage page args) s = .next { setVariant p v s with response := [0x00#8] } := by
  refine (taken_inSetup_of_setup _ hheld hs).trans ?_
  rw [setPageEffect, pageOf_eq_some hp, hv]
  rfl

theorem exec_setPage_of_refused {page : Byte} {args : PageArgs} {s : State} (hheld : s.resetHeld = false)
    (hs : s.station = .setup) (h : 63 < page.toNat ∨ variantOf args = none) :
    exec (.setPage page args) s = .next { s with response := [0x11#8] } := by
  refine (taken_inSetup_of_setup _ hheld hs).trans ?_
  unfold setPageEffect
  split
  · next hp hv =>
    rcases h with h | h
    · simp [pageOf_eq_none h] at hp
    · simp [h] at hv
  · rfl

/-- Settles O5: the arguments are a descriptor or they are none, and nothing else decides in SETUP. -/
theorem setPageDescriptor : Obligations.SetPageDescriptor := by
  intro page args s hheld
  refine ⟨fun hs => taken_inSetup_of_not_setup _ hheld hs, fun hs p hp => ⟨?_, ?_, ?_⟩, fun hs h => ?_⟩
  · rintro rfl
    exact exec_setPage_of_some hheld hs hp rfl
  · rintro pol chan remote watch P R W rfl hpol hr hw
    exact exec_setPage_of_some hheld hs hp (variantOf_self (policyOf_eq_some hpol) (remoteWritesOf_eq_some hr) (yesNoOf_eq_some hw))
  · rintro x rr wr age watch R W rfl hwr hw
    refine ⟨fun hrr => exec_setPage_of_some hheld hs hp ?_, fun hrr => exec_setPage_of_some hheld hs hp ?_⟩ <;>
      (simp only [variantOf, writeRouteOf_eq_some hwr, yesNoOf_eq_some hw, hrr]; rfl)
  · refine exec_setPage_of_refused hheld hs ?_
    rcases h with h | ⟨o, rfl⟩ | ⟨a, c, r, w, rfl, h⟩ | ⟨x, rr, wr, age, w, rfl, h⟩
    · exact .inl h
    · exact .inr rfl
    · refine .inr (variantOf_self_none ?_)
      rcases h with h | h | h | h
      · exact .inl (policyOf_eq_none (.inl h))
      · exact .inl (policyOf_eq_none (.inr h))
      · exact .inr (.inl (remoteWritesOf_eq_none h))
      · exact .inr (.inr (yesNoOf_eq_none h))
    · exact .inr (variantOf_peer_none (h.imp id (.imp writeRouteOf_eq_none yesNoOf_eq_none)))

/-! ### READ, WRITE and the requests they make (R11 to R17, R75) -/

theorem readEffect_of_inRange {page offset count : Byte} {p : PageNo} (hp : p.val = page.toNat) (ho : offset.toNat ≤ 63)
    (h1 : 1 ≤ count.toNat) (h16 : count.toNat ≤ 16) (hend : offset.toNat + count.toNat ≤ 64) (s : State) :
    readEffect page offset count s = readRoute { page := p, offset := offset.toNat, count := count.toNat } s := by
  rw [readEffect, accessOf_of_inRange hp ho h1 h16 hend]

theorem readRoute_of_disputed {a : Access} {s : State} (hd : s.disputed a.page = true) :
    readRoute a s = respond .disputed [] s := if_pos hd

theorem readRoute_of_none {a : Access} {s : State} (hd : s.disputed a.page = false) (hv : s.variant a.page = .none) :
    readRoute a s = respond .unmapped [] s := by
  unfold readRoute
  rw [if_neg (by simp [hd]), hv]

theorem readRoute_of_own {a : Access} {s : State} (hd : s.disputed a.page = false) {d : OwnDesc} {r : OwnRun}
    (hv : s.variant a.page = .own d r) :
    readRoute a s = respond .ok (0 :: wordsBytes (s.words a.page a.offset a.count)) s := by
  unfold readRoute
  rw [if_neg (by simp [hd]), hv]

theorem readRoute_of_mirror {a : Access} {s : State} (hd : s.disputed a.page = false) {d : MirrorDesc} {r : MirrorRun}
    (hv : s.variant a.page = .mirror d r) :
    readRoute a s =
      if r.state = .empty then respond .empty [] s
      else respond .ok (r.state.code :: wordsBytes (s.words a.page a.offset a.count)) s := by
  unfold readRoute
  rw [if_neg (by simp [hd]), hv]

theorem readRoute_of_fetch {a : Access} {s : State} (hd : s.disputed a.page = false) {d : FetchDesc}
    (hv : s.variant a.page = .fetch d) : readRoute a s = hostClaim .read d.owner a s := by
  unfold readRoute
  rw [if_neg (by simp [hd]), hv]

/-- Settles O14: READ's checks are the argument check and the route, and a route within the station changes nothing. -/
theorem readAnswers : Obligations.ReadAnswers := by
  intro page offset count s hheld
  refine ⟨fun h => next_of_effect hheld ?_, fun p hp ho h1 h16 hend => ?_⟩
  · rw [readEffect, accessOf_of_outOfRange h]
    rfl
  have hread := readEffect_of_inRange hp ho h1 h16 hend s
  refine ⟨fun hd => next_of_effect hheld ?_, fun hd hv => next_of_effect hheld ?_,
    fun hd d r hv => next_of_effect hheld ?_, fun hd d r hv => ⟨fun he => next_of_effect hheld ?_,
      fun b hb => next_of_effect hheld ?_⟩⟩ <;> refine hread.trans ?_
  · exact readRoute_of_disputed hd
  · exact readRoute_of_none hd hv
  · rw [← words_eq_map]
    exact readRoute_of_own hd hv
  · exact (readRoute_of_mirror hd hv).trans (if_pos he)
  · rw [← words_eq_map]
    refine (readRoute_of_mirror hd hv).trans ?_
    rcases hb with ⟨hst, rfl⟩ | ⟨hst, rfl⟩ | ⟨hst, rfl⟩ <;> (rw [hst]; rfl)

theorem hostClaim_of_inactive {kind : RequestKind} {x : Station} {a : Access} {s : State} (hs : s.station ≠ .active) :
    hostClaim kind x a s = respond .wrongState [] s := if_pos hs

theorem hostClaim_of_lost {kind : RequestKind} {x : Station} {a : Access} {s : State} (hs : s.station = .active)
    (hx : ¬ Present s x) : hostClaim kind x a s = respond .ownerLost [] s := by
  rw [hostClaim, if_neg (not_not.2 hs), if_pos (Bool.eq_false_iff.2 fun h => hx ((isPresent_iff s x).1 h))]

theorem hostClaim_of_present {kind : RequestKind} {x : Station} {a : Access} {s : State} (hs : s.station = .active)
    (hx : Present s x) :
    hostClaim kind x a s =
      match lowestFree s.table with
      | some t => respond .queued [byteOf t.val] (allocate t kind x a.page a.offset a.count s)
      | none => respond .full [] s :=
  (if_neg (not_not.2 hs)).trans (if_neg (by simp [(isPresent_iff s x).2 hx]))

theorem writeEffect_of_access {page offset count : Byte} {ws : List Word} {a : Access} (hw : ws.length = writeWordCount count)
    (ha : accessOf page offset count = some a) (s : State) : writeEffect page offset count ws s = writeRoute a ws s := by
  have hlen : ws.length = a.count := by
    obtain ⟨-, -, hn, -, h1, h16, -⟩ := accessOf_eq_some.1 ha
    rw [hw, hn]
    exact if_pos ⟨h1, h16⟩
  rw [writeEffect, if_neg (by omega), ha]
  simp only
  rw [← hlen, List.take_length]

theorem writeRoute_of_disputed {a : Access} {ws : List Word} {s : State} (hd : s.disputed a.page = true) :
    writeRoute a ws s = respond .disputed [] s := if_pos hd

theorem writeRoute_of_none {a : Access} {ws : List Word} {s : State} (hd : s.disputed a.page = false)
    (hv : s.variant a.page = .none) : writeRoute a ws s = respond .unmapped [] s := by
  unfold writeRoute
  rw [if_neg (by simp [hd]), hv]

theorem writeRoute_of_own {a : Access} {ws : List Word} {s : State} (hd : s.disputed a.page = false) {d : OwnDesc}
    {r : OwnRun} (hv : s.variant a.page = .own d r) :
    writeRoute a ws s = respond .ok [] (storeWrite a.page a.offset ws s) := by
  unfold writeRoute
  rw [if_neg (by simp [hd]), hv]

/-- A WRITE to a page of a peer is refused or claims a request entry, by the page's write route alone (R15). -/
theorem writeRoute_of_peer {a : Access} {ws : List Word} {s : State} (hd : s.disputed a.page = false) {x : Station}
    {route : WriteRoute} (hx : (s.variant a.page).peerOwner = some x) (hr : (s.variant a.page).writeRoute = some route) :
    writeRoute a ws s = if route = .deny then respond .denied [] s else hostClaim (.write ws) x a s := by
  unfold writeRoute
  rw [if_neg (by simp [hd])]
  split
  · next hv => rw [hv] at hx; exact nomatch hx
  · next hv => rw [hv] at hx; exact nomatch hx
  all_goals
    next hv =>
    rw [hv] at hx hr
    obtain rfl := Option.some.inj hx
    obtain rfl := Option.some.inj hr
    rfl

/-- Settles O16: WRITE's checks are the argument check and the route, and the write into an owned page is the store's. -/
theorem hostWrites : Obligations.HostWrites := by
  intro page offset count ws s hheld hw
  refine ⟨fun h => next_of_effect hheld ?_, fun p hp ho h1 h16 hend => ?_⟩
  · rw [writeEffect, if_neg (by omega), accessOf_of_outOfRange h]
    rfl
  have hwrite := writeEffect_of_access hw (accessOf_of_inRange hp ho h1 h16 hend) s
  refine ⟨fun hd => next_of_effect hheld (hwrite.trans (writeRoute_of_disputed hd)),
    fun hd hv => next_of_effect hheld (hwrite.trans (writeRoute_of_none hd hv)),
    fun hd hr => next_of_effect hheld (hwrite.trans ?_), fun hd hmem d r hv => ?_⟩
  · obtain ⟨x, hx⟩ : ∃ x, (s.variant p).peerOwner = some x := by
      cases hv : s.variant p <;> rw [hv] at hr
      case mirror d r => exact ⟨_, rfl⟩
      case fetch d => exact ⟨_, rfl⟩
      all_goals exact nomatch hr
    exact (writeRoute_of_peer hd hx hr).trans (if_pos rfl)
  · have hlen : ws.length = count.toNat := hw.trans (if_pos ⟨h1, h16⟩)
    exact ⟨_, storeWrite_writesStore hmem hv hd (by omega), next_of_effect hheld (hwrite.trans (writeRoute_of_own hd hv))⟩

/-- The two commands that claim a request entry, where their arguments are in range (R12, R15). -/
theorem exec_eq_hostClaim {page offset count : Byte} {ws : List Word} {p : PageNo} {x : Station} {c : Instr}
    {kind : RequestKind} {s : State} (hheld : s.resetHeld = false) (hp : p.val = page.toNat) (ho : offset.toNat ≤ 63)
    (h1 : 1 ≤ count.toNat) (h16 : count.toNat ≤ 16) (hend : offset.toNat + count.toNat ≤ 64) (hd : s.disputed p = false)
    (h : (c = .read page offset count ∧ kind = .read ∧ ∃ d, s.variant p = .fetch d ∧ d.owner = x) ∨
      (c = .write page offset count ws ∧ ws.length = count.toNat ∧ kind = .write ws ∧
        ((∃ d, s.variant p = .fetch d ∧ d.owner = x ∧ d.writeRoute = .send) ∨
          ∃ d r, s.variant p = .mirror d r ∧ d.owner = x ∧ d.writeRoute = .send))) :
    exec c s = .next (hostClaim kind x { page := p, offset := offset.toNat, count := count.toNat } s) := by
  rcases h with ⟨rfl, rfl, d, hv, rfl⟩ | ⟨rfl, hw, rfl, hroute⟩
  · exact next_of_effect hheld ((readEffect_of_inRange hp ho h1 h16 hend s).trans (readRoute_of_fetch hd hv))
  · have hcount : writeWordCount count = count.toNat := if_pos ⟨h1, h16⟩
    refine next_of_effect hheld ((writeEffect_of_access (hw.trans hcount.symm) (accessOf_of_inRange hp ho h1 h16 hend) s).trans ?_)
    have hpeer : (s.variant p).peerOwner = some x ∧ (s.variant p).writeRoute = some .send := by
      rcases hroute with ⟨d, hv, rfl, hr⟩ | ⟨d, r, hv, rfl, hr⟩ <;> rw [hv] <;> exact ⟨rfl, congrArg some hr⟩
    exact (writeRoute_of_peer hd hpeer.1 hpeer.2).trans (if_neg (by decide))

/-- Settles O15: both commands are one claim, with its three conditions in order. -/
theorem hostRequests : Obligations.HostRequests := by
  intro page offset count ws p x c kind s hheld hp ho h1 h16 hend hd h
  have hclaim := exec_eq_hostClaim hheld hp ho h1 h16 hend hd h
  refine ⟨fun hs => hclaim.trans ?_, fun hs hx => hclaim.trans ?_, fun hs hx hfull => hclaim.trans ?_,
    fun hs hx t ht hlt => hclaim.trans ?_⟩
  · rw [hostClaim_of_inactive hs]; rfl
  · rw [hostClaim_of_lost hs hx]; rfl
  · rw [hostClaim_of_present hs hx, lowestFree_of_full hfull]; rfl
  · rw [hostClaim_of_present hs hx, lowestFree_of_first ht hlt]; rfl

/-! ### COLLECT and FLUSH (R86, R26) -/

theorem isRefresh_iff (r : Request) : r.isRefresh = true ↔ r.kind = .refresh := by
  unfold Request.isRefresh
  split
  · next h => simp [h]
  · next h => exact ⟨nofun, fun e => (h e).elim⟩

theorem collectEffect_of_entry {tag : Byte} {t : Tag} {s : State} (ht : t.val = tag.toNat) {r : Request}
    (hr : s.table[t] = some r) (hk : r.kind ≠ .refresh) : collectEffect tag s = collectEntry t r s := by
  have hrefresh : r.isRefresh = false := Bool.eq_false_iff.2 (mt (isRefresh_iff r).1 hk)
  rw [collectEffect, tagOf_eq_some ht]
  simp only [hr, hrefresh]
  rfl

/-- Settles O17: COLLECT is a case split on the entry and its phase. -/
theorem collectAnswers : Obligations.CollectAnswers := by
  intro tag s hheld
  refine ⟨fun h => next_of_effect hheld ?_, fun t ht => ⟨fun hn => next_of_effect hheld ?_, fun r hr =>
    ⟨fun hk => next_of_effect hheld ?_, fun k hk => ?_⟩⟩⟩
  · rw [collectEffect, tagOf_eq_none h]; rfl
  · rw [collectEffect, tagOf_eq_some ht]
    simp only [hn]
    rfl
  · have hrefresh : r.isRefresh = true := (isRefresh_iff r).2 hk
    rw [collectEffect, tagOf_eq_some ht]
    simp only [hr, hrefresh]
    rfl
  have hentry : collectEffect tag s = collectEntry t r s :=
    collectEffect_of_entry ht hr (by rcases hk with ⟨h, -⟩ | ⟨ws, h, -⟩ <;> rw [h] <;> nofun)
  have hcode : r.kind.code = k := by rcases hk with ⟨h, rfl⟩ | ⟨ws, h, rfl⟩ <;> rw [h] <;> rfl
  subst hcode
  refine ⟨fun framed h => ?_, fun timer h => ?_, fun st h => ?_, fun st v ws h => ?_, fun why b h hb => ?_⟩ <;>
    refine next_of_effect hheld (hentry.trans ?_) <;> rw [collectEntry, h]
  · rfl
  · rfl
  · rfl
  · rfl
  · rcases hb with ⟨rfl, rfl⟩ | ⟨rfl, rfl⟩ | ⟨rfl, rfl⟩ | ⟨rfl, rfl⟩ <;> rfl

theorem flushEffect_of_page {page : Byte} {p : PageNo} {s : State} (hs : s.station = .active) (hp : p.val = page.toNat) :
    flushEffect page s = flushPage p s := by
  rw [flushEffect, if_neg (not_not.2 hs), pageOf_eq_some hp]

theorem flushPage_of_own {p : PageNo} {s : State} {d : OwnDesc} {r : OwnRun} (hv : s.variant p = .own d r) :
    flushPage p s =
      if d.policy = .quiet then respond .badArgument [] s
      else if s.disputed p then respond .disputed [] s
      else if r.span.isNone then respond .empty [] s
      else respond .ok [] (enqueue .span p s) := by
  rw [flushPage, hv]

theorem flushPage_of_not_own {p : PageNo} {s : State} (h : (s.variant p).isOwn = false) :
    flushPage p s = respond .badArgument [] s := by
  unfold flushPage
  split
  · next hv => rw [hv] at h; exact nomatch h
  · rfl

/-- Settles O18: FLUSH is the first row of R26 that applies. -/
theorem flushAnswers : Obligations.FlushAnswers := by
  intro page s hheld
  refine ⟨fun hs => next_of_effect hheld (if_pos hs), fun hs h => next_of_effect hheld ?_, fun hs p hp => ?_⟩
  · rw [flushEffect, if_neg (not_not.2 hs), pageOf_eq_none h]; rfl
  have hflush := flushEffect_of_page hs hp
  refine ⟨fun ho => next_of_effect hheld (hflush.trans (flushPage_of_not_own ho)), fun d r hv => ?_⟩
  have hown := hflush.trans (flushPage_of_own hv)
  refine ⟨fun hq => next_of_effect hheld (hown.trans (if_pos hq)), fun hq hd => next_of_effect hheld (hown.trans ?_),
    fun hq hd hspan => next_of_effect hheld (hown.trans ?_), fun hq hd hspan => next_of_effect hheld (hown.trans ?_)⟩
  · rw [if_neg hq, if_pos hd]; rfl
  · rw [if_neg hq, if_neg (by simp [hd]), if_pos (by rw [hspan]; rfl)]; rfl
  · rw [if_neg hq, if_neg (by simp [hd]), if_neg (by simpa using hspan),
      enqueue_eq hs ((eligible_iff s p).2 ⟨d, r, hv, hq, hd⟩)]
    rfl

/-! ### STATUS, PEER, PAGE_STATE and CHANNEL_STATE (R180 to R182) -/

theorem freeEntries_eq (table : Vector (Option Request) 16) :
    freeEntries table = ((List.finRange 16).filter fun r => table[r].isNone).length :=
  List.countP_eq_length_filter ..

/-- Settles O19: the three code bytes follow the fields they name. -/
theorem statusResult : Obligations.StatusResult := by
  intro s hheld
  refine ⟨_, next_of_effect hheld rfl, rfl, s.station.code, s.configError.code, s.mutedReason.code, ?_, ?_, ?_, ?_⟩
  · cases s.station <;> simp [StationState.code]
  · cases s.configError <;> simp [ConfigError.code]
  · cases s.mutedReason <;> simp [MutedReason.code]
  · rw [← freeEntries_eq]; rfl

theorem exec_peer {b : Byte} {x : Station} {s : State} (hheld : s.resetHeld = false) (hx : x.val = b.toNat) :
    exec (.peer b) s = .next { s with response := 0x00#8 :: peerBytes s.peers[x] } :=
  next_of_effect hheld (by rw [peerEffect, stationOf_eq_some hx]; rfl)

theorem exec_pageState {b : Byte} {p : PageNo} {s : State} (hheld : s.resetHeld = false) (hp : p.val = b.toNat) :
    exec (.pageState b) s = .next { s with response := 0x00#8 :: pageStateBytes s p } :=
  next_of_effect hheld (by rw [pageStateEffect, pageOf_eq_some hp]; rfl)

theorem exec_channelState {b : Byte} {c : ChannelNo} {s : State} (hheld : s.resetHeld = false) (hc : c.val = b.toNat) :
    exec (.channelState b) s = .next { s with response := 0x00#8 :: channelBytes s.channels[c] } :=
  next_of_effect hheld (by rw [channelStateEffect, channelOf_eq_some hc]; rfl)

/-- The queued mark as a byte, in the terms of the queue. -/
theorem queuedCode_of {q : List (PageNo × Extent)} {p : PageNo} {b : Byte}
    (h : (p ∉ q.map Prod.fst ∧ b = 0) ∨
      (∃ e ∈ (q.find? fun e => e.1 = p), (e.2 = .span ∧ b = 1) ∨ (e.2 = .full ∧ b = 2))) :
    queuedCode (queuedMark q p) = b := by
  rcases h with ⟨hp, rfl⟩ | ⟨e, he, hb⟩
  · have hnone : (q.find? fun e => e.1 = p) = none :=
      List.find?_eq_none.2 fun e he => by simpa using fun h => hp (List.mem_map.2 ⟨e, he, h⟩)
    rw [queuedMark, hnone]; rfl
  · rw [queuedMark, Option.mem_def.1 he]
    rcases hb with ⟨h, rfl⟩ | ⟨h, rfl⟩ <;> (simp only [Option.map_some, h]; rfl)

/-- The bytes of PAGE_STATE after the owner byte and the DISPUTED flag. -/
def pageStateTail (s : State) (p : PageNo) : List Byte := (pageStateBytes s p).drop 2

theorem pageStateBytes_eq (s : State) (p : PageNo) :
    pageStateBytes s p =
      (match s.variant p with
        | .none => 0x80#8
        | .own _ _ => 0x40#8
        | .mirror d _ => byteOf d.owner.val
        | .fetch d => byteOf d.owner.val) :: (if s.disputed p then 1 else 0) :: pageStateTail s p := by
  unfold pageStateTail pageStateBytes
  generalize s.variant p = v
  cases v with
  | none => rfl
  | own d r =>
    obtain ⟨version, span⟩ := r
    cases span <;> rfl
  | mirror d r =>
    obtain ⟨state, last, age, mark⟩ := r
    cases last <;> rfl
  | fetch d => rfl

/-- Settles O20: the three reports are their bytes, field by field. -/
theorem stateReads : Obligations.StateReads := by
  intro b s hheld
  refine ⟨fun h => next_of_effect hheld ?_, fun x hx => ?_, fun h => next_of_effect hheld ?_, fun p hp => ?_,
    fun h => next_of_effect hheld ?_, fun c hc => ?_⟩
  · rw [peerEffect, stationOf_eq_none h]; rfl
  · refine ⟨_, _, exec_peer hheld hx, fun h => by rw [h], fun h => by rw [h], fun k h => by rw [h], fun h => by rw [h]; rfl,
      fun owned limit h => by rw [h]; rfl⟩
  · rw [pageStateEffect, pageOf_eq_none h]; rfl
  · refine ⟨_, pageStateTail s p, (exec_pageState hheld hp).trans (by rw [pageStateBytes_eq]), fun hv => ?_, fun d hv => ?_,
      fun d r q hv hq => ?_, fun d r hv => ?_⟩ <;> rw [pageStateTail, pageStateBytes, hv]
    · exact ⟨rfl, rfl⟩
    · exact ⟨rfl, rfl⟩
    · obtain rfl := queuedCode_of hq
      obtain ⟨version, span⟩ := r
      exact ⟨rfl, by rintro rfl; rfl, by rintro sp rfl; rfl⟩
    · obtain ⟨state, last, age, mark⟩ := r
      refine ⟨rfl, state.code, (last.map fun v => [1, v]).getD [0, 0],
        (age.map fun k => byteOf k.main).getD 0, mark.code, ?_, ?_, ?_, ?_, ?_⟩
      · cases last <;> cases age <;> rfl
      · cases state <;> simp [MirrorState.code]
      · cases last <;> simp
      · cases age <;> simp
      · cases mark <;> simp [RefreshMark.code]
  · rw [channelStateEffect, channelOf_eq_none h]; rfl
  · refine ⟨s.channels[c].kind.code, (channelBytes s.channels[c]).drop 3, exec_channelState hheld hc, ?_, fun h => by rw [channelBytes, h]; rfl,
      fun k h => by rw [channelBytes, h]; rfl⟩
    cases s.channels[c].kind <;> simp [ChannelKind.code]

end Sys2Proof.Machine
end

section
/-! PROOF. The tick, the expiries of the tick-counted timers, the loss of a station and the refresh claims. -/

namespace Sys2Proof.Machine

/-! ### Counts after ticks (R42, Table 3.1) -/

theorem tick_of_running {prescale count k : Nat} (hk : k + 1 < prescale * count) :
    Counter.tick prescale { pre := prescale - k % prescale, main := count - k / prescale, due := false } =
      { pre := prescale - (k + 1) % prescale, main := count - (k + 1) / prescale, due := false } := by
  have hp : 0 < prescale := Nat.pos_of_ne_zero fun h => by simp [h] at hk
  have hmod := Nat.mod_lt k hp
  unfold Counter.tick
  by_cases hlast : k % prescale + 1 = prescale
  · have hdvd : prescale ∣ k + 1 := (Nat.dvd_iff_mod_eq_zero).2 (by rw [Nat.add_mod, ← Nat.mod_eq_of_lt hmod]; simp [hlast])
    have hdiv : (k + 1) / prescale = k / prescale + 1 := Nat.succ_div_of_dvd hdvd
    have hcount : k / prescale + 1 < count := hdiv ▸ Nat.div_lt_of_lt_mul hk
    simp only [Nat.mod_eq_zero_of_dvd hdvd, hdiv]
    rw [if_neg (by simp), if_neg (by omega), if_pos (by omega)]
    rfl
  · have hmod' : (k + 1) % prescale = k % prescale + 1 := by
      rw [Nat.add_mod, Nat.mod_eq_of_lt (show k % prescale + 1 % prescale < prescale by
        have := Nat.mod_le 1 prescale; omega)]
      rw [Nat.mod_eq_of_lt (show 1 < prescale by omega)]
    have hdiv : (k + 1) / prescale = k / prescale := Nat.succ_div_of_not_dvd fun h => by
      have := Nat.mod_eq_zero_of_dvd h
      omega
    simp only [hmod', hdiv]
    rw [if_neg (by simp), if_pos (by omega)]
    rfl

/-- A loaded timer while its count runs. -/
theorem ticks_of_running {prescale count k : Nat} (hk : k < prescale * count) :
    (Counter.tick prescale)^[k] (Counter.load prescale count) =
      { pre := prescale - k % prescale, main := count - k / prescale, due := false } := by
  induction k with
  | zero => simp [Counter.load]
  | succ k ih => rw [Function.iterate_succ_apply', ih (by omega), tick_of_running hk]

/-- A loaded timer from the tick that ends its count on. -/
theorem ticks_of_ended {prescale count k : Nat} (hp : 1 ≤ prescale) (hc : 1 ≤ count) (hk : prescale * count ≤ k) :
    (Counter.tick prescale)^[k] (Counter.load prescale count) = { pre := 1, main := 1, due := true } := by
  induction k, hk using Nat.le_induction with
  | base =>
    obtain ⟨p, rfl⟩ := Nat.exists_eq_add_of_le' hp
    obtain ⟨c, rfl⟩ := Nat.exists_eq_add_of_le' hc
    have hend : (p + 1) * (c + 1) = (p + (p + 1) * c) + 1 := by ring
    have hlast : (p + (p + 1) * c) % (p + 1) = p ∧ (p + (p + 1) * c) / (p + 1) = c := by
      constructor
      · rw [Nat.add_mul_mod_self_left, Nat.mod_eq_of_lt (Nat.lt_succ_self p)]
      · rw [Nat.add_mul_div_left _ _ (Nat.succ_pos p), Nat.div_eq_of_lt (Nat.lt_succ_self p), Nat.zero_add]
    rw [hend, Function.iterate_succ_apply', ticks_of_running (by omega), hlast.1, hlast.2]
    simp [Counter.tick]
  | succ k _ ih => rw [Function.iterate_succ_apply', ih]; rfl

/-- Settles O26. -/
theorem countAfterTicks : Obligations.CountAfterTicks := fun _ _ _ hp hc => ⟨ticks_of_running, ticks_of_ended hp hc⟩

/-! ### TICK (R38) -/

theorem request_tick_of_not_sent {r : Request} (h : ∀ k, r.phase ≠ .sent k) : r.tick = r := by
  unfold Request.tick
  split
  · next k hk => exact absurd hk (h k)
  · rfl

theorem peer_tick_of_not_present {r : PeerRecord} (h : ∀ k, r.state ≠ .present k) : r.tick = r := by
  unfold PeerRecord.tick
  split
  · next k hk => exact absurd hk (h k)
  · rfl

/-- Settles O27: each table is mapped by the tick of its record. -/
theorem tickReachesTimers : Obligations.TickReachesTimers := by
  intro s hheld
  have hdisputed : ∀ p : PageNo, (tickEffect s).disputed p = s.disputed p := fun p => by
    simp [State.disputed, tickEffect, mapVariants]
  have hvariant : ∀ p : PageNo, (tickEffect s).variant p = (s.variant p).tick := fun p => by
    simp [State.variant, tickEffect, mapVariants]
  have htable : ∀ u : Tag, (tickEffect s).table[u] = s.table[u].map Request.tick := fun u => by simp [tickEffect]
  have hpeers : ∀ x : Station, (tickEffect s).peers[x] = s.peers[x].tick := fun x => by simp [tickEffect]
  refine ⟨tickEffect s, next_of_effect hheld rfl, fun c => ?_, fun u => ⟨fun r k hr hk => ?_, fun h => ?_⟩,
    fun p => ⟨hdisputed p, (hvariant p).trans ?_⟩,
    fun x => ⟨fun k hk => (hpeers x).trans ?_, fun h => (hpeers x).trans ?_⟩, rfl, ?_⟩
  · simp [tickEffect, tickCounter]
  · rw [htable, hr, Option.map_some, Request.tick, hk]
    rfl
  · rw [htable]
    cases hr : s.table[u] with
    | none => rfl
    | some r => exact congrArg some (request_tick_of_not_sent (h r · hr))
  · cases s.variant p <;> rfl
  · rw [PeerRecord.tick, hk]
    rfl
  · exact peer_tick_of_not_present fun k hk => h ⟨k, hk⟩
  · rw [tickEffect, mapVariants_only]

/-! ### The expiries (R46, R47, R63, R84, R146) -/

theorem isDue_of_not_due {c : Option Counter} (h : ∀ k, c = some k → k.due = false) : isDue c = false :=
  Bool.eq_false_iff.2 fun e => by
    obtain ⟨k, hk, hdue⟩ := (isDue_iff c).1 e
    exact Bool.false_ne_true ((h k hk).symm.trans hdue)

theorem isDue_of_due {c : Option Counter} {k : Counter} (h : c = some k) (hdue : k.due = true) : isDue c = true :=
  (isDue_iff c).2 ⟨k, h, hdue⟩

/-- Settles O28: a due expiry queues the pages that its channel chooses, after the channel's own change. -/
theorem channelExpiries : Obligations.ChannelExpiries := by
  intro c s hheld
  refine ⟨fun k hs hkind hk hdue => next_of_effect hheld ?_, fun k hs hkind hk hdue => next_of_effect hheld ?_,
    fun h => ⟨next_of_effect hheld ?_, next_of_effect hheld ?_⟩⟩
  · have hgathers : s.channels[c].kind.gathers = true := by
      cases h : s.channels[c].kind
      case period => exact absurd h hkind
      all_goals rfl
    rw [gatherExpiryEffect, if_pos (by rw [hgathers, isDue_of_due hk hdue]; rfl)]
    simp only [Bool.and_assoc]
    exact (enqueueAll_eq (by exact hs) _ _).trans rfl
  · rw [periodExpiryEffect, if_pos (by rw [hkind, isDue_of_due hk hdue]; rfl)]
    exact (enqueueAll_eq (by exact hs) _ _).trans rfl
  · rw [gatherExpiryEffect, if_neg (by rw [isDue_of_not_due h]; simp)]
  · rw [periodExpiryEffect, if_neg (by rw [isDue_of_not_due h]; simp)]

theorem replyTimerExpiryEffect_of_sent {t : Tag} {r : Request} {k : Counter} {s : State} (hr : s.table[t] = some r)
    (hk : r.phase = .sent k) : replyTimerExpiryEffect t s = if k.due then replyTimeout t r s else s := by
  rw [replyTimerExpiryEffect, hr]
  simp only [hk]

theorem refreshFailed_of_mirror {p : PageNo} {s : State} {d : MirrorDesc} {m : MirrorRun} (hv : s.variant p = .mirror d m)
    (hm : m.state ≠ .empty) :
    refreshFailed p s = setVariant p (.mirror d { m with state := .stale, age := none, mark := .none }) s := by
  rw [refreshFailed, hv]
  simp only [if_neg hm]

/-- Settles O29: the reply timeout by the entry's attempt and kind. -/
theorem replyTimeouts : Obligations.ReplyTimeouts := by
  intro t r k s hheld hr hk
  have hsent := replyTimerExpiryEffect_of_sent hr hk
  refine ⟨fun hd => next_of_effect hheld (hsent.trans ?_), fun hd ha => next_of_effect hheld (hsent.trans ?_),
    fun hd ha hkind => next_of_effect hheld (hsent.trans ?_),
    fun hd ha hkind d m hv hm => next_of_effect hheld (hsent.trans ?_)⟩
  · rw [if_neg (by simp [hd])]
  all_goals rw [if_pos hd, replyTimeout]
  · rw [if_pos ha]
    rfl
  · rw [if_neg (by omega), if_neg fun h => hkind ((isRefresh_iff r).1 h)]
    rfl
  · rw [if_neg (by omega), if_pos ((isRefresh_iff r).2 hkind), refreshFailed_of_mirror hv hm]
    rfl

theorem ageExpiryEffect_of_mirror {p : PageNo} {d : MirrorDesc} {r : MirrorRun} {s : State} (hv : s.variant p = .mirror d r) :
    ageExpiryEffect p s =
      if isDue r.age then
        setVariant p
          (.mirror d { r with state := if r.state = .fresh ∨ r.state = .gapped then .stale else r.state, age := none }) s
      else s := by
  rw [ageExpiryEffect, hv]

/-- Settles O30. -/
theorem ageAndPresenceExpiries : Obligations.AgeAndPresenceExpiries := by
  intro s hheld
  refine ⟨fun p d r k hv hk hdue hst => next_of_effect hheld ((ageExpiryEffect_of_mirror hv).trans ?_),
    fun p d r hv h => next_of_effect hheld ((ageExpiryEffect_of_mirror hv).trans ?_),
    fun k hk hdue => next_of_effect hheld ?_, fun h => next_of_effect hheld ?_⟩
  · rw [if_pos (isDue_of_due hk hdue), if_pos hst]
  · rw [if_neg (by simp [isDue_of_not_due h])]
  · rw [presenceExpiryEffect, if_pos (isDue_of_due hk hdue)]
  · rw [presenceExpiryEffect, if_neg (by simp [isDue_of_not_due h])]

/-! ### A station lost (R166, R167) -/

theorem silenceExpiryEffect_of_present {x : Station} {k : Counter} {s : State} (hk : s.peers[x].state = .present k) :
    silenceExpiryEffect x s =
      if k.due then ownerLost x (setFlag .peerChange (setPeer x { s.peers[x] with state := .silent } s)) else s := by
  rw [silenceExpiryEffect, hk]

/-- Settles O31: both ways of losing a station end in the owner-lost actions. -/
theorem peerLost : Obligations.PeerLost := by
  intro x s hheld
  refine ⟨fun k hk hdue => ⟨_, ownerLost_losesOwner x _, next_of_effect hheld ?_⟩, fun k hk hdue => next_of_effect hheld ?_,
    fun hhears hx hst => ⟨_, ownerLost_losesOwner x _, next_of_effect hheld ?_⟩, fun hhears hx hst => next_of_effect hheld ?_⟩
  · rw [silenceExpiryEffect_of_present hk, if_pos hdue]
    rfl
  · rw [silenceExpiryEffect_of_present hk, if_neg (by simp [hdue])]
  · rw [frameFrom_of_hears hx hhears]
    exact if_neg hst
  · rw [frameFrom_of_hears hx hhears]
    exact if_pos hst

/-! ### Refresh claims (R58) -/

/-- The FREE tags, lowest first. -/
def freeTags (s : State) : List Tag := (List.finRange 16).filter fun u => s.table[u].isNone

/-- Whether page `p` can claim an entry: its mark is WANTED and its owner PRESENT. -/
def wantsClaim (s : State) (p : PageNo) : Bool :=
  match s.variant p with
  | .mirror d r => decide (r.mark = .wanted) && s.isPresent d.owner
  | _ => false

theorem wantsClaim_iff (s : State) (p : PageNo) :
    wantsClaim s p = true ↔ ∃ d r, s.variant p = .mirror d r ∧ r.mark = .wanted ∧ Present s d.owner := by
  unfold wantsClaim
  split
  · next d r hv =>
    rw [Bool.and_eq_true, decide_eq_true_iff, isPresent_iff]
    exact ⟨fun ⟨hm, hx⟩ => ⟨d, r, hv, hm, hx⟩, fun ⟨d', r', hv', hm, hx⟩ => by
      cases hv.symm.trans hv'
      exact ⟨hm, hx⟩⟩
  · next h => exact ⟨nofun, fun ⟨d, r, hv, _⟩ => absurd hv (h d r)⟩

theorem lowestFree_eq_head? (s : State) : lowestFree s.table = (freeTags s).head? := (List.head?_filter ..).symm

/-- The claim of page `p` with tag `u`, made. -/
def claimed (p : PageNo) (u : Tag) (d : MirrorDesc) (r : MirrorRun) (s : State) : State :=
  setVariant p (.mirror d { r with mark := .pending }) (allocate u .refresh d.owner p 0 Config.pageWords s)

theorem claimPage_of_not_wanting {s : State} {p : PageNo} (h : wantsClaim s p = false) : claimPage p s = s := by
  unfold wantsClaim at h
  unfold claimPage
  split
  · next d r hv =>
    rw [hv] at h
    refine if_neg fun ⟨hm, hx⟩ => ?_
    simp [hm, hx] at h
  · rfl

theorem claimPage_of_full {s : State} (p : PageNo) (h : freeTags s = []) : claimPage p s = s := by
  unfold claimPage
  split
  · split
    · rw [lowestFree_eq_head?, h]
      rfl
    · rfl
  · rfl

theorem claimPage_of_wanting {s : State} {p : PageNo} {d : MirrorDesc} {r : MirrorRun} (hv : s.variant p = .mirror d r)
    (hm : r.mark = .wanted) (hx : Present s d.owner) {u : Tag} {rest : List Tag} (hu : freeTags s = u :: rest) :
    claimPage p s = claimed p u d r s := by
  have hlow : lowestFree s.table = some u := by rw [lowestFree_eq_head?, hu]; rfl
  unfold claimPage
  rw [hv]
  simp only [hm, (isPresent_iff s d.owner).2 hx, and_self, if_true, hlow]
  rfl

/-- What a list of claims made from `s` leaves, as R58 and R75 give it. -/
structure Claims (claims : List (PageNo × Tag)) (s t : State) : Prop where
  only : t = { s with pages := t.pages, issues := t.issues, table := t.table, sendOrder := t.sendOrder }
  order : t.sendOrder = s.sendOrder ++ claims.map Prod.snd
  made : ∀ p u, (p, u) ∈ claims → ∃ d r, s.variant p = .mirror d r ∧ t.variant p = .mirror d { r with mark := .pending } ∧
    t.table[u] = some { kind := .refresh, owner := d.owner, page := p, offset := 0, count := 64,
                        issue := s.issues[u] + 1, attempt := 0, phase := .queued false } ∧
    t.issues[u] = s.issues[u] + 1
  pages : ∀ p : PageNo, t.disputed p = s.disputed p ∧ (p ∉ claims.map Prod.fst → t.variant p = s.variant p)
  tags : ∀ u : Tag, u ∉ claims.map Prod.snd → t.table[u] = s.table[u] ∧ t.issues[u] = s.issues[u]

theorem Claims.nil (s : State) : Claims [] s s :=
  ⟨rfl, (List.append_nil _).symm, nofun, fun _ => ⟨rfl, fun _ => rfl⟩, fun _ _ => ⟨rfl, rfl⟩⟩

theorem claimed_variant (p q : PageNo) (u : Tag) (d : MirrorDesc) (r : MirrorRun) (s : State) :
    (claimed p u d r s).variant q = if q = p then .mirror d { r with mark := .pending } else s.variant q :=
  setVariant_variant ..

theorem claimed_table (p : PageNo) (u v : Tag) (d : MirrorDesc) (r : MirrorRun) (s : State) :
    (claimed p u d r s).table[v] =
      if v = u then some { kind := .refresh, owner := d.owner, page := p, offset := 0, count := 64
                           issue := s.issues[u] + 1, attempt := 0, phase := .queued false }
      else s.table[v] :=
  setEntry_getElem u v _ s

theorem claimed_issues (p : PageNo) (u v : Tag) (d : MirrorDesc) (r : MirrorRun) (s : State) :
    (claimed p u d r s).issues[v] = if v = u then s.issues[u] + 1 else s.issues[v] := by
  show (s.issues.set u (s.issues[u] + 1))[v] = _
  by_cases h : v = u
  · subst h; simp
  · have hval : u.val ≠ v.val := fun e => h (Fin.ext e.symm)
    simp [h, hval]

/-- A claim before claims of other pages with other tags. -/
theorem Claims.cons {p : PageNo} {u : Tag} {claims : List (PageNo × Tag)} {d : MirrorDesc} {r : MirrorRun} {s t : State}
    (hv : s.variant p = .mirror d r) (hp : p ∉ claims.map Prod.fst) (hu : u ∉ claims.map Prod.snd)
    (h : Claims claims (claimed p u d r s) t) : Claims ((p, u) :: claims) s t := by
  obtain ⟨honly, horder, hmade, hpages, htags⟩ := h
  refine ⟨?_, ?_, fun q v hqv => ?_, fun q => ⟨(hpages q).1.trans (setVariant_disputed ..), fun hq => ?_⟩, fun v hv' => ?_⟩
  · rw [honly]; rfl
  · rw [horder]
    exact List.append_assoc s.sendOrder [u] _
  · rcases List.mem_cons.1 hqv with h | hmem
    · obtain ⟨rfl, rfl⟩ := Prod.mk.inj h
      obtain ⟨htable, hissues⟩ := htags v hu
      refine ⟨d, r, hv, ?_, ?_, ?_⟩
      · rw [(hpages q).2 hp, claimed_variant, if_pos rfl]
      · rw [htable, claimed_table, if_pos rfl]
      · rw [hissues, claimed_issues, if_pos rfl]
    · have hqp : q ≠ p := fun e => hp (e ▸ List.mem_map_of_mem (f := Prod.fst) hmem)
      have hvu : v ≠ u := fun e => hu (e ▸ List.mem_map_of_mem (f := Prod.snd) hmem)
      obtain ⟨d', r', hvar, hq⟩ := hmade q v hmem
      rw [claimed_variant, if_neg hqp] at hvar
      rw [claimed_issues, if_neg hvu] at hq
      exact ⟨d', r', hvar, hq⟩
  · obtain ⟨hqp, hq⟩ := not_or.1 (mt List.mem_cons.2 hq)
    rw [(hpages q).2 hq, claimed_variant, if_neg hqp]
  · obtain ⟨hvu, hmem⟩ := not_or.1 (mt List.mem_cons.2 hv')
    obtain ⟨htable, hissues⟩ := htags v hmem
    rw [htable, hissues, claimed_table, claimed_issues, if_neg hvu, if_neg hvu]
    exact ⟨rfl, rfl⟩

theorem freeTags_claimed {p : PageNo} {u : Tag} {rest : List Tag} {d : MirrorDesc} {r : MirrorRun} {s : State}
    (hu : freeTags s = u :: rest) : freeTags (claimed p u d r s) = rest := by
  have hnodup : (u :: rest).Nodup := hu ▸ (List.nodup_finRange 16).filter _
  have hne : ∀ v ∈ rest, v ≠ u := fun v hv e => (List.nodup_cons.1 hnodup).1 (e ▸ hv)
  have hfilter : freeTags (claimed p u d r s) = (freeTags s).filter fun v => decide (v ≠ u) := by
    unfold freeTags
    rw [List.filter_filter]
    refine List.filter_congr fun v _ => ?_
    rw [claimed_table]
    by_cases h : v = u <;> simp [h]
  rw [hfilter, hu, List.filter_cons_of_neg (by simp), List.filter_eq_self.2 fun v hv => by simp [hne v hv]]

theorem wantsClaim_claimed {p q : PageNo} {u : Tag} {d : MirrorDesc} {r : MirrorRun} {s : State} (h : q ≠ p) :
    wantsClaim (claimed p u d r s) q = wantsClaim s q := by
  have hv : (claimed p u d r s).variant q = s.variant q := by rw [claimed_variant, if_neg h]
  unfold wantsClaim
  rw [hv]
  rfl

/-- The claims of the pages of a list that names none twice: its wanting pages paired with the FREE tags. -/
theorem foldl_claimPage_claims {l : List PageNo} (hl : l.Nodup) (s : State) :
    Claims ((l.filter (wantsClaim s)).zip (freeTags s)) s (l.foldl (fun s p => claimPage p s) s) := by
  induction l generalizing s with
  | nil => exact .nil s
  | cons p l ih =>
    obtain ⟨hp, hl⟩ := List.nodup_cons.1 hl
    rw [List.foldl_cons]
    by_cases hw : wantsClaim s p = true
    · cases hfree : freeTags s with
      | nil =>
        have h := ih hl s
        rw [hfree, List.zip_nil_right] at h
        rw [claimPage_of_full p hfree, List.zip_nil_right]
        exact h
      | cons u rest =>
        obtain ⟨d, r, hv, hm, hx⟩ := (wantsClaim_iff s p).1 hw
        have hwants : l.filter (wantsClaim (claimed p u d r s)) = l.filter (wantsClaim s) :=
          List.filter_congr fun q hq => wantsClaim_claimed fun e => hp (e ▸ hq)
        have hnodup : (u :: rest).Nodup := hfree ▸ (List.nodup_finRange 16).filter _
        have h := ih hl (claimed p u d r s)
        rw [hwants, freeTags_claimed hfree] at h
        rw [claimPage_of_wanting hv hm hx hfree, List.filter_cons_of_pos hw]
        refine h.cons hv (fun hmem => ?_) fun hmem => ?_
        · obtain ⟨⟨q, v⟩, hqv, rfl⟩ := List.mem_map.1 hmem
          exact hp (List.mem_of_mem_filter (List.of_mem_zip hqv).1)
        · obtain ⟨⟨q, v⟩, hqv, rfl⟩ := List.mem_map.1 hmem
          exact (List.nodup_cons.1 hnodup).1 (List.of_mem_zip hqv).2
    · rw [claimPage_of_not_wanting (Bool.eq_false_iff.2 hw), List.filter_cons_of_neg hw]
      exact ih hl s

/-- Settles O32: one claim after another pairs the wanting pages with the FREE tags. -/
theorem refreshClaims : Obligations.RefreshClaims := by
  intro s hheld
  refine ⟨fun hs => next_of_effect hheld (if_neg hs), fun hs wants claims hwants hclaims => ?_⟩
  obtain rfl : wants = wantsClaim s := funext fun p =>
    Bool.eq_iff_iff.2 ((hwants p).trans (wantsClaim_iff s p).symm)
  obtain ⟨honly, horder, hmade, hpages, htags⟩ := foldl_claimPage_claims (List.nodup_finRange 64) s
  subst hclaims
  exact ⟨_, next_of_effect hheld (if_pos hs), honly, horder, hmade, hpages, htags⟩

end Sys2Proof.Machine
end

section
/-! PROOF. The frames received from the line: the end of a good frame, the frames of each kind and the receiver's own reports. -/

namespace Sys2Proof.Machine

/-! ### The end of a good frame (R118, R120, R130, R132, R165) -/

theorem heard_only (x : Station) (window : Bool) (s : State) :
    heard x window s =
      { s with
        receiver := .resting, view := some x, accessTimer := some 0, listen := none, windowOpen := window
        peers := (heard x window s).peers, flags := (heard x window s).flags } := by
  unfold heard
  rw [renewPresence_only]
  rfl

section Heard

variable (x : Station) (window : Bool) (s : State)

@[simp] theorem heard_station : (heard x window s).station = s.station := by rw [heard_only]

@[simp] theorem heard_record : (heard x window s).record = s.record := by rw [heard_only]

@[simp] theorem heard_pages : (heard x window s).pages = s.pages := by rw [heard_only]

@[simp] theorem heard_memory : (heard x window s).memory = s.memory := by rw [heard_only]

@[simp] theorem heard_table : (heard x window s).table = s.table := by rw [heard_only]

@[simp] theorem heard_replyQueue : (heard x window s).replyQueue = s.replyQueue := by rw [heard_only]

@[simp] theorem heard_filter : (heard x window s).filter = s.filter := by rw [heard_only]

@[simp] theorem heard_variant (p : PageNo) : (heard x window s).variant p = s.variant p := by
  unfold State.variant
  rw [heard_pages]

@[simp] theorem heard_disputed (p : PageNo) : (heard x window s).disputed p = s.disputed p := by
  unfold State.disputed
  rw [heard_pages]

end Heard

theorem renewPresence_advance (x : Station) (n : CounterName) (s : State) :
    renewPresence x (advance n s) = advance n (renewPresence x s) := by
  have hpresent : (advance n s).isPresent x = s.isPresent x := rfl
  unfold renewPresence
  rw [hpresent]
  split <;> rfl

theorem byteOf_toNat_of_station (x : Station) : (byteOf x.val).toNat = x.val := by
  have := x.isLt
  simp only [byteOf, BitVec.toNat_ofNat]
  omega

theorem stationOf_byteOf (x : Station) : stationOf (byteOf x.val) = some x :=
  stationOf_eq_some (byteOf_toNat_of_station x).symm

theorem malformedEffect_of_hears {x : Station} {s : State} (hx : x ≠ s.record.own) (hs : s.hears = true) :
    malformedEffect (byteOf x.val) s = advance .malformed (heard x false s) := by
  rw [malformedEffect, stationOf_byteOf]
  exact (frameFrom_of_hears hx hs false _).trans (renewPresence_advance x .malformed _)

theorem malformedEffect_of_noStation {b : Byte} {s : State} (hb : 31 < b.toNat) :
    malformedEffect b s = if s.hears then advance .malformed (goodEnd none false s) else s := by
  rw [malformedEffect, stationOf_eq_none hb]

/-- A frame row whose frame and a malformed frame of its sender come to the same. -/
theorem exec_of_frame {c : Instr} {b : Byte} {s u : State} (hheld : s.resetHeld = false) (hc : frameSender c = some b)
    (hframe : ∀ (x : Station) (window : Bool) (f : State → State), b = byteOf x.val → frameFrom x window f s = u)
    (hmalformed : malformedEffect b s = u) : exec c s = .next u := by
  cases c
  case updateFrame x p v f ws =>
    obtain rfl := Option.some.inj hc
    refine next_of_effect hheld ?_
    unfold updateFrameEffect
    split
    · exact hmalformed
    · exact hframe _ _ _ rfl
  case writeFrame x page offset tag issue attempt ws =>
    obtain rfl := Option.some.inj hc
    refine next_of_effect hheld ?_
    unfold writeFrameEffect
    split
    · exact hmalformed
    · exact hframe _ _ _ rfl
  case replyFrame x tag issue attempt status page version count ws =>
    obtain rfl := Option.some.inj hc
    refine next_of_effect hheld ?_
    unfold replyFrameEffect
    split
    · exact hframe _ _ _ rfl
    · exact hmalformed
  case malformedFrame b' =>
    obtain rfl := Option.some.inj hc
    exact next_of_effect hheld hmalformed
  case fetchFrame | ackFrame | announceFrame | presenceFrame | leaveFrame | otherTargetFrame =>
    obtain rfl := Option.some.inj hc
    exact next_of_effect hheld (hframe _ _ _ rfl)
  all_goals exact nomatch hc

theorem malformedEffect_of_ignored {b : Byte} {s : State}
    (hframe : ∀ (x : Station) (window : Bool) (f : State → State), b = byteOf x.val → frameFrom x window f s = s)
    (hb : 31 < b.toNat → s.hears = false) : malformedEffect b s = s := by
  by_cases h : 31 < b.toNat
  · rw [malformedEffect_of_noStation h, if_neg (by simp [hb h])]
  · have hx : (⟨b.toNat, by omega⟩ : Station).val = b.toNat := rfl
    rw [malformedEffect, stationOf_eq_some hx]
    exact hframe _ _ _ (byteOf_toNat b).symm

/-- Settles O33: a good frame of a row that does no more is the end of a good frame, and a row of a frame that is not taken leaves
the state. -/
theorem goodFramesRenewPresence : Obligations.GoodFramesRenewPresence := by
  intro s hheld
  refine ⟨fun hs x hx => ⟨heard x false s, heard_hears x false s, next_of_effect hheld (frameFrom_of_hears hx hs _ _),
      next_of_effect hheld (frameFrom_of_hears hx hs _ _), next_of_effect hheld (malformedEffect_of_hears hx hs)⟩,
    fun hs b hb => next_of_effect hheld ((malformedEffect_of_noStation hb).trans (if_pos hs)), ?_, findsTwin_iff s,
    fun hs c b hc hb => ?_, fun ht c hc => ?_⟩
  · rw [hears_iff]
    refine and_congr_right fun _ => and_congr_right fun _ => or_congr_right ?_
    exact ⟨fun ⟨n, ht, hr⟩ => ⟨hr, n, ht⟩, fun ⟨hr, n, ht⟩ => ⟨n, ht, hr⟩⟩
  · have hframe : ∀ (x : Station) (window : Bool) (f : State → State), b = byteOf x.val → frameFrom x window f s = s :=
      fun x window f hbx => by
        rw [frameFrom, if_neg fun e => hb (by rw [hbx, e]), if_neg (by simp [hs])]
    exact exec_of_frame hheld hc hframe (malformedEffect_of_ignored hframe fun _ => hs)
  · have hown : ∀ (window : Bool) (f : State → State), frameFrom s.record.own window f s = s := fun window f => by
      rw [frameFrom, if_pos rfl, if_neg (by simp [ht])]
    rcases hc with rfl | hc
    · exact next_of_effect hheld (hown false id)
    · have hframe : ∀ (x : Station) (window : Bool) (f : State → State), byteOf s.record.own.val = byteOf x.val →
          frameFrom x window f s = s := fun x window f hbx => by
        have hx : x = s.record.own := Fin.ext (by
          rw [← byteOf_toNat_of_station x, ← hbx, byteOf_toNat_of_station])
        rw [hx]
        exact hown window f
      refine exec_of_frame hheld hc hframe (malformedEffect_of_ignored hframe fun h => ?_)
      rw [byteOf_toNat_of_station] at h
      omega

/-! ### UPDATE (R54 to R56) -/

theorem exec_updateFrame_of_hears {x : Station} {p : PageNo} {v f : Byte} {ws : List Word} {s : State}
    (hheld : s.resetHeld = false) (hs : s.hears = true) (hx : x ≠ s.record.own) (hw : updateWf ws = true) :
    exec (.updateFrame x p v f ws) s = .next (takeUpdate x p v f ws (heard x false s)) := by
  have hwf : ¬ (ws.length = 0 ∨ Config.longestBody < 4 + 2 * ws.length) := by
    simp only [updateWf, decide_eq_true_eq] at hw
    omega
  refine next_of_effect hheld ?_
  rw [updateFrameEffect, if_neg hwf, frameFrom_of_hears hx hs]
  rfl

theorem takeUpdate_of_beyond {x : Station} {p : PageNo} {v f : Byte} {ws : List Word} {s : State}
    (h : 64 < f.toNat + ws.length) : takeUpdate x p v f ws s = advance .malformed s := if_pos h

theorem takeUpdate_of_unmapped {x : Station} {p : PageNo} {v f : Byte} {ws : List Word} {s : State}
    (hw : f.toNat + ws.length ≤ 64) (h : s.variant p = .none ∨ s.disputed p = true) : takeUpdate x p v f ws s = s := by
  refine (if_neg (Nat.not_lt.2 hw)).trans ?_
  by_cases hv : s.variant p = .none
  · rw [if_pos hv]
  · rw [if_neg hv, if_pos (h.resolve_left hv)]

/-- An UPDATE that reaches a page that is not DISPUTED is taken by the page's variant. -/
theorem takeUpdate_of_mapped {x : Station} {p : PageNo} {v f : Byte} {ws : List Word} {s : State}
    (hw : f.toNat + ws.length ≤ 64) (hd : s.disputed p = false) :
    takeUpdate x p v f ws s =
      match s.variant p with
      | .none => s
      | .own _ _ => advance .oldUpdates s
      | .mirror d r => if d.owner = x then updateMirror p d r v f ws s else advance .oldUpdates s
      | .fetch d => if d.owner = x then s else advance .oldUpdates s := by
  refine (if_neg (Nat.not_lt.2 hw)).trans ?_
  by_cases hv : s.variant p = .none
  · rw [if_pos hv, hv]
  · rw [if_neg hv]
    exact if_neg (by simp [hd])

theorem takeUpdate_of_stranger {x y : Station} {p : PageNo} {v f : Byte} {ws : List Word} {s : State}
    (hw : f.toNat + ws.length ≤ 64) (hd : s.disputed p = false) (hy : (s.variant p).peerOwner = some y) (hne : y ≠ x) :
    takeUpdate x p v f ws s = advance .oldUpdates s := by
  rw [takeUpdate_of_mapped hw hd]
  cases hv : s.variant p with
  | none => rw [hv] at hy; exact nomatch hy
  | own d r => rfl
  | mirror d r =>
    rw [hv] at hy
    exact if_neg fun e => hne ((Option.some.inj hy).symm.trans e)
  | fetch d =>
    rw [hv] at hy
    exact if_neg fun e => hne ((Option.some.inj hy).symm.trans e)

theorem updateMirror_of_some {p : PageNo} {d : MirrorDesc} {r : MirrorRun} {v f : Byte} {ws : List Word} {s : State}
    {st : MirrorState} {mark : RefreshMark}
    (h : classifyUpdate r v (decide (f = 0 ∧ ws.length = 64)) = some (st, mark)) :
    updateMirror p d r v f ws s = applyToMirror p d f.toNat ws v st mark s := by
  unfold updateMirror
  split
  · next h' => cases h.symm.trans h'; rfl
  · next h' => exact nomatch h.symm.trans h'

theorem updateMirror_of_none {p : PageNo} {d : MirrorDesc} {r : MirrorRun} {v f : Byte} {ws : List Word} {s : State}
    (h : classifyUpdate r v (decide (f = 0 ∧ ws.length = 64)) = none) :
    updateMirror p d r v f ws s = advance .oldUpdates s := by
  unfold updateMirror
  split
  · next h' => exact nomatch h.symm.trans h'
  · rfl

theorem classifyUpdate_of_empty {r : MirrorRun} (v : Byte) (isFull : Bool) (he : r.state = .empty) :
    classifyUpdate r v isFull = some (if isFull then (.fresh, r.mark) else (.gapped, .wanted)) := by
  unfold classifyUpdate
  rw [he]

theorem classifyUpdate_of_last {r : MirrorRun} {l : Byte} (v : Byte) (isFull : Bool) (he : r.state ≠ .empty)
    (hl : r.last = some l) :
    classifyUpdate r v isFull =
      if (v - l).toNat = 0 ∨ 128 ≤ (v - l).toNat then none
      else if isFull then some (.fresh, r.mark)
      else if (v - l).toNat = 1 then some (if r.state = .gapped then .gapped else .fresh, r.mark)
      else some (.gapped, if r.mark = .none then .wanted else r.mark) := by
  unfold classifyUpdate
  split
  · next h => exact absurd h he
  · next h _ => exact nomatch hl.symm.trans h
  · next h _ =>
    cases hl.symm.trans h
    rfl

/-- The table of updates (R55), row by row. -/
theorem classifyUpdate_of_row {r : MirrorRun} {v : Byte} {full : Prop} [Decidable full] {st : MirrorState} {mark : RefreshMark}
    (h : (r.state = .empty ∧ full ∧ st = .fresh ∧ mark = r.mark) ∨
      (r.state = .empty ∧ ¬ full ∧ st = .gapped ∧ mark = .wanted) ∨
      (r.state ≠ .empty ∧ ∃ l, r.last = some l ∧ 1 ≤ (v - l).toNat ∧ (v - l).toNat ≤ 127 ∧
        ((full ∧ st = .fresh ∧ mark = r.mark) ∨
          (¬ full ∧ (v - l).toNat = 1 ∧ r.state = .gapped ∧ st = .gapped ∧ mark = r.mark) ∨
          (¬ full ∧ (v - l).toNat = 1 ∧ r.state ≠ .gapped ∧ st = .fresh ∧ mark = r.mark) ∨
          (¬ full ∧ 2 ≤ (v - l).toNat ∧ st = .gapped ∧ mark = if r.mark = .none then .wanted else r.mark)))) :
    classifyUpdate r v (decide full) = some (st, mark) := by
  rcases h with ⟨he, hf, rfl, rfl⟩ | ⟨he, hf, rfl, rfl⟩ | ⟨he, l, hl, h1, h127, h⟩
  · simp [classifyUpdate_of_empty v _ he, hf]
  · simp [classifyUpdate_of_empty v _ he, hf]
  · rw [classifyUpdate_of_last v _ he hl, if_neg (by omega)]
    rcases h with ⟨hf, rfl, rfl⟩ | ⟨hf, hd, hg, rfl, rfl⟩ | ⟨hf, hd, hg, rfl, rfl⟩ | ⟨hf, hd, rfl, rfl⟩
    · simp [hf]
    · simp [hf, hd, hg]
    · simp [hf, hd, hg]
    · rw [if_neg (by simp [hf]), if_neg (by omega)]

/-- Settles O34: the rows of R54 in order, and the table of R55 for a mirror of the sender. -/
theorem updateFrames : Obligations.UpdateFrames := by
  intro x p v f ws s hheld hs hx hw
  have hexec := exec_updateFrame_of_hears (p := p) (v := v) (f := f) hheld hs hx hw
  refine ⟨heard x false s, heard_hears x false s, fun h => hexec.trans (congrArg _ (takeUpdate_of_beyond h)), fun hf =>
    ⟨fun h => hexec.trans (congrArg _ (takeUpdate_of_unmapped hf (by simpa using h))), fun hd => ?_⟩⟩
  have htake := takeUpdate_of_mapped (x := x) (p := p) (v := v) (s := heard x false s) hf (by simpa using hd)
  rw [heard_variant] at htake
  refine ⟨fun d r hv => hexec.trans (congrArg _ ?_), fun y hy hne => hexec.trans (congrArg _ ?_),
    fun d hv hown => hexec.trans (congrArg _ ?_), fun hmem d r hv hown => ?_⟩
  · rw [htake, hv]
  · exact takeUpdate_of_stranger hf (by simpa using hd) (by simpa using hy) hne
  · rw [htake, hv]
    exact if_pos hown
  · rw [hv] at htake
    have hmirror : exec (.updateFrame x p v f ws) s = .next (updateMirror p d r v f ws (heard x false s)) :=
      hexec.trans (congrArg _ (htake.trans (if_pos hown)))
    have hsound : MemorySound (heard x false s) := by unfold MemorySound; rw [heard_memory]; exact hmem
    refine ⟨fun st mark h => ⟨_, applyToMirror_applies hsound d hf v st mark, hmirror.trans (congrArg _ ?_)⟩,
      fun he l hl h => hmirror.trans (congrArg _ (updateMirror_of_none ?_))⟩
    · refine updateMirror_of_some (classifyUpdate_of_row (full := f = 0 ∧ ws.length = 64) ?_)
      simp only [and_assoc] at h ⊢
      exact h
    · rw [classifyUpdate_of_last v _ he hl, if_pos h]

/-! ### FETCH and WRITE (R94 to R106) -/

theorem serve_of_room {f : State → State} {s : State} (hs : s.station = .active) (hn : s.replyQueue.length < 8) :
    serve f s = f s := by
  rw [serve, if_pos hs]
  exact if_neg (Nat.not_le.2 hn)

theorem serve_of_full {f : State → State} {s : State} (hs : s.station = .active) (hn : 8 ≤ s.replyQueue.length) :
    serve f s = advance .overruns s := by
  rw [serve, if_pos hs]
  exact if_pos hn

theorem serve_of_inactive {f : State → State} {s : State} (hs : s.station ≠ .active) : serve f s = s := if_neg hs

/-- Settles O35: FETCH is an answer owed, served in ACTIVE with room. -/
theorem fetchFrames : Obligations.FetchFrames := by
  intro x page offset count tag issue attempt s hheld hs hx
  have hexec : exec (.fetchFrame x page offset count tag issue attempt) s =
      .next (serve (oweAnswer (.reply x tag issue attempt page offset count)) (heard x true s)) :=
    next_of_effect hheld (frameFrom_of_hears hx hs _ _)
  refine ⟨heard x true s, heard_hears x true s, fun hact hn => hexec.trans (congrArg _ ?_),
    fun hact hn => hexec.trans (congrArg _ ?_), fun hact => hexec.trans (congrArg _ ?_)⟩
  · rw [serve_of_room (by simpa using hact) (by simpa using hn), oweAnswer, heard_replyQueue]
  · exact serve_of_full (by simpa using hact) (by simpa using hn)
  · exact serve_of_inactive (by simpa using hact)

theorem pageOf_eq_some_iff {b : Byte} {p : PageNo} : pageOf b = some p ↔ p.val = b.toNat := by
  refine ⟨fun h => ?_, pageOf_eq_some⟩
  unfold pageOf at h
  split at h
  · cases h; rfl
  · exact nomatch h

/-- The rows of R103 in their order. -/
theorem writeStatus_of_row {s : State} {page offset : Byte} {n : Nat} {st : RemoteStatus}
    (h : (63 < page.toNat ∧ st = .range) ∨
      ∃ p : PageNo, p.val = page.toNat ∧
        ((s.disputed p = true ∧ st = .disputed) ∨
          (s.disputed p = false ∧ (s.variant p).isOwn = false ∧ st = .notOwner) ∨
          (s.disputed p = false ∧ ∃ d r, s.variant p = .own d r ∧
            (((n = 0 ∨ 16 < n ∨ 64 < offset.toNat + n) ∧ st = .range) ∨
              (1 ≤ n ∧ n ≤ 16 ∧ offset.toNat + n ≤ 64 ∧
                ((d.remoteWrites = .refuse ∧ st = .refused) ∨ (d.remoteWrites = .accept ∧ st = .done))))))) :
    writeStatus s page offset n = st := by
  unfold writeStatus
  rcases h with ⟨hp, rfl⟩ | ⟨p, hp, h⟩
  · rw [pageOf_eq_none hp]
  · simp only [pageOf_eq_some hp]
    rcases h with ⟨hd, rfl⟩ | ⟨hd, ho, rfl⟩ | ⟨hd, d, r, hv, h⟩
    · exact if_pos hd
    · rw [if_neg (by simp [hd])]
      split
      · next hv => rw [hv] at ho; exact nomatch ho
      · rfl
    · rw [if_neg (by simp [hd]), hv]
      rcases h with ⟨hn, rfl⟩ | ⟨h1, h16, h64, h⟩
      · exact if_pos hn
      · have hin : ¬ (n = 0 ∨ Config.longestAccess < n ∨ Config.pageWords < offset.toNat + n) := by
          simp only [Config.longestAccess, Config.pageWords]
          omega
        refine (if_neg hin).trans ?_
        rcases h with ⟨hr, rfl⟩ | ⟨hr, rfl⟩
        · exact if_pos hr
        · exact if_neg (by rw [hr]; nofun)

theorem filterFind_eq (filter : List FilterRecord) (x : Station) (t : Tag) (i : Issue) :
    filterFind filter x t i = filter.find? fun h => h.writer = x ∧ h.tag = t ∧ h.issue = i := by
  unfold filterFind
  congr 1
  funext h
  simp only [Bool.decide_and, Bool.and_assoc]

theorem exec_writeFrame_of_hears {x : Station} {page offset : Byte} {tag : Tag} {issue : Issue} {attempt : Byte}
    {ws : List Word} {s : State} (hheld : s.resetHeld = false) (hs : s.hears = true) (hx : x ≠ s.record.own)
    (hw : writeFrameWf ws = true) :
    exec (.writeFrame x page offset tag issue attempt ws) s =
      .next (serve (serveWrite x page offset tag issue attempt ws) (heard x true s)) := by
  have hwf : ¬ Config.longestBody < 5 + 2 * ws.length := by
    simp only [writeFrameWf, decide_eq_true_eq] at hw
    omega
  refine next_of_effect hheld ?_
  rw [writeFrameEffect, if_neg hwf, frameFrom_of_hears hx hs]
  rfl

theorem serveWrite_of_hit {x : Station} {page offset : Byte} {tag : Tag} {issue : Issue} {attempt : Byte} {ws : List Word}
    {s : State} {f : FilterRecord} (h : filterFind s.filter x tag issue = some f) :
    serveWrite x page offset tag issue attempt ws s = oweAnswer (.ack x tag issue attempt f.status) s := by
  rw [serveWrite, h]

/-- What a remote WRITE of status `st` leaves of the store. -/
def written (st : RemoteStatus) (page offset : Byte) (ws : List Word) (s : State) : State :=
  if st = .done then applyRemoteWrite page offset ws s else s

theorem written_only (st : RemoteStatus) (page offset : Byte) (ws : List Word) (s : State) :
    (written st page offset ws s).replyQueue = s.replyQueue ∧ (written st page offset ws s).filter = s.filter := by
  unfold written
  split
  · rw [applyRemoteWrite_only]
    exact ⟨rfl, rfl⟩
  · exact ⟨rfl, rfl⟩

theorem serveWrite_of_miss {x : Station} {page offset : Byte} {tag : Tag} {issue : Issue} {attempt : Byte} {ws : List Word}
    {s : State} (h : filterFind s.filter x tag issue = none) {st : RemoteStatus}
    (hst : writeStatus s page offset ws.length = st) :
    serveWrite x page offset tag issue attempt ws s =
      { written st page offset ws s with
        replyQueue := s.replyQueue ++ [.ack x tag issue attempt st]
        filter :=
          (if 8 ≤ s.filter.length then s.filter.tail else s.filter) ++
            [{ writer := x, tag := tag, issue := issue, status := st }] } := by
  obtain ⟨hqueue, hfilter⟩ := written_only st page offset ws s
  have hserve : serveWrite x page offset tag issue attempt ws s =
      oweAnswer (.ack x tag issue attempt st)
        { written st page offset ws s with
          filter := filterAdd { writer := x, tag := tag, issue := issue, status := st } (written st page offset ws s).filter } := by
    rw [serveWrite, h]
    simp only [hst]
    rfl
  rw [hserve, oweAnswer, hfilter, filterAdd, List.drop_one]
  simp only [hqueue]
  rfl

/-- A remote WRITE of status DONE is a write into the store of an owned page, with its notification (R103, R22). -/
theorem written_of_done {s : State} {page offset : Byte} {ws : List Word} (hst : writeStatus s page offset ws.length = .done)
    (hmem : MemorySound s) : ∃ p d r u, p.val = page.toNat ∧ s.variant p = .own d r ∧ WritesStore p offset.toNat ws s u ∧
      written .done page offset ws s = if d.watch then notifyAppend p u else u := by
  obtain ⟨p, d, r, hp, hd, hv, -, -, -, hend⟩ := writeStatus_eq_done hst
  refine ⟨p, d, r, storeWrite p offset.toNat ws s, pageOf_eq_some_iff.1 hp, hv, storeWrite_writesStore hmem hv hd hend, ?_⟩
  rw [written, if_pos rfl, applyRemoteWrite, hp]
  simp only [hv]
  rfl

/-- Settles O36: WRITE is served in ACTIVE with room, from the filter or by the rows of R103. -/
theorem writeFrames : Obligations.WriteFrames := by
  intro x page offset tag issue attempt ws s hheld hs hx hw
  have hexec := exec_writeFrame_of_hears (page := page) (offset := offset) (tag := tag) (issue := issue) (attempt := attempt)
    hheld hs hx hw
  refine ⟨heard x true s, heard_hears x true s, fun hact => hexec.trans (congrArg _ ?_),
    fun hact hn => hexec.trans (congrArg _ ?_), fun hact hn => ?_⟩
  · exact serve_of_inactive (by simpa using hact)
  · exact serve_of_full (by simpa using hact) (by simpa using hn)
  have hserve := hexec.trans (congrArg _ (serve_of_room (by simpa using hact) (by simpa using hn)))
  refine ⟨fun h hf => hserve.trans (congrArg _ ?_), fun hmiss st hst => ?_⟩
  · rw [serveWrite_of_hit (f := h) (by rw [heard_filter, filterFind_eq]; exact hf), oweAnswer, heard_replyQueue]
  · have hnone : filterFind (heard x true s).filter x tag issue = none := by
      rw [heard_filter, filterFind_eq]
      exact List.find?_eq_none.2 fun h hh => by simpa using hmiss h hh
    have hstatus : writeStatus (heard x true s) page offset ws.length = st :=
      writeStatus_of_row (by simpa only [heard_variant, heard_disputed] using hst)
    refine ⟨written st page offset ws (heard x true s), fun h => if_neg h, fun h hmem => ?_, hserve.trans (congrArg _ ?_)⟩
    · subst h
      obtain ⟨p, d, r, u, hp, hv, hu, hwritten⟩ := written_of_done hstatus (by
        unfold MemorySound; rw [heard_memory]; exact hmem)
      exact ⟨p, d, r, u, hp, by simpa using hv, hu, hwritten⟩
    · rw [serveWrite_of_miss hnone hstatus, heard_replyQueue, heard_filter]

/-! ### REPLY and ACK (R79 to R82) -/

theorem remoteStatusOf_remoteCode (st : RemoteStatus) : remoteStatusOf (remoteCode st) = some st := by
  cases st <;> rfl

theorem remoteStatusOf_eq_none {b : Byte} (h : 4 < b.toNat) : remoteStatusOf b = none := by
  have hne (c : Byte) (hc : c.toNat ≤ 4) : b ≠ c := byte_ne_of_lt (by omega)
  rw [remoteStatusOf, if_neg (hne 0 (by decide)), if_neg (hne 1 (by decide)), if_neg (hne 2 (by decide)),
    if_neg (hne 3 (by decide)), if_neg (hne 4 (by decide))]

theorem withStatus_of_code {st : RemoteStatus} {b : Byte} (h : remoteCode st = b) (f : RemoteStatus → State → State)
    (s : State) : withStatus b f s = f st s := by
  rw [withStatus, ← h, remoteStatusOf_remoteCode]

theorem withStatus_of_unknown {b : Byte} (h : 4 < b.toNat) (f : RemoteStatus → State → State) (s : State) :
    withStatus b f s = advance .malformed s := by
  rw [withStatus, remoteStatusOf_eq_none h]

theorem exec_replyFrame_of_hears {x : Station} {tag : Tag} {issue : Issue} {attempt status page version count : Byte}
    {ws : List Word} {s : State} (hheld : s.resetHeld = false) (hs : s.hears = true) (hx : x ≠ s.record.own)
    (hw : replyWf status count ws = true) :
    exec (.replyFrame x tag issue attempt status page version count ws) s =
      .next (withStatus status (fun st => takeReply x tag issue attempt st page version ws) (heard x false s)) := by
  refine next_of_effect hheld ((if_pos hw).trans ?_)
  rw [frameFrom_of_hears hx hs]
  rfl

theorem exec_ackFrame_of_hears {x : Station} {tag : Tag} {issue : Issue} {attempt status : Byte} {s : State}
    (hheld : s.resetHeld = false) (hs : s.hears = true) (hx : x ≠ s.record.own) :
    exec (.ackFrame x tag issue attempt status) s =
      .next (withStatus status (fun st => takeAck x tag issue attempt st) (heard x false s)) :=
  next_of_effect hheld (frameFrom_of_hears hx hs _ _)

theorem takeReply_of_match {x : Station} {t : Tag} {i : Issue} {a page v : Byte} {st : RemoteStatus} {ws : List Word}
    {s : State} {r : Request} (hr : s.table[t] = some r) (ha : r.answers x i a = true) (hp : r.page.val = page.toNat) :
    takeReply x t i a st page v ws s =
      match r.kind with
      | .read => readAnswered t r st v ws s
      | .write _ => advance .lateReplies s
      | .refresh =>
        match s.variant r.page with
        | .mirror d m =>
          if d.owner = x then setEntry t none (refreshAnswered r.page d m st v ws s) else advance .lateReplies s
        | _ => advance .lateReplies s := by
  unfold takeReply
  rw [hr]
  exact if_pos (by rw [ha, decide_eq_true hp.symm]; rfl)

theorem takeReply_of_late {x : Station} {t : Tag} {i : Issue} {a page v : Byte} {st : RemoteStatus} {ws : List Word}
    {s : State} (h : ∀ r k, s.table[t] = some r → r.phase = .sent k → r.owner = x → r.issue = i → r.attempt = a.toNat →
      r.page.val = page.toNat → ∃ words, r.kind = .write words) :
    takeReply x t i a st page v ws s = advance .lateReplies s := by
  unfold takeReply
  split
  · next r hr =>
    split
    · next ha =>
      obtain ⟨hans, hp⟩ := Bool.and_eq_true_iff.1 ha
      obtain ⟨⟨k, hk⟩, hx, hi, hat⟩ := answers_iff.1 hans
      obtain ⟨words, hw⟩ := h r k hr hk hx hi hat (of_decide_eq_true hp).symm
      rw [hw]
    · rfl
  · rfl

theorem takeAck_of_match {x : Station} {t : Tag} {i : Issue} {a : Byte} {st : RemoteStatus} {s : State} {r : Request}
    (hr : s.table[t] = some r) (ha : r.answers x i a = true) {words : List Word} (hk : r.kind = .write words) :
    takeAck x t i a st s = requestAnswered t r st none s := by
  unfold takeAck
  rw [hr]
  simp only [hk]
  exact if_pos ha

theorem takeAck_of_late {x : Station} {t : Tag} {i : Issue} {a : Byte} {st : RemoteStatus} {s : State}
    (h : ∀ r k, s.table[t] = some r → r.phase = .sent k → r.owner = x → r.issue = i → r.attempt = a.toNat →
      ∀ words, r.kind ≠ .write words) :
    takeAck x t i a st s = advance .lateReplies s := by
  unfold takeAck
  split
  · next r hr =>
    split
    · next words hw =>
      split
      · next ha =>
        obtain ⟨⟨k, hk⟩, hx, hi, hat⟩ := answers_iff.1 ha
        exact absurd hw (h r k hr hk hx hi hat words)
      · rfl
    · rfl
  · rfl

theorem requestAnswered_heard (x : Station) (t : Tag) (r : Request) (st : RemoteStatus) (data : Option (Byte × List Word))
    (s : State) :
    requestAnswered t r st data (heard x false s) =
      { heard x false s with
        table := s.table.set t (some { r with phase := .done st data }), flags := (heard x false s).flags ||| 0x40#8 } := by
  rw [requestAnswered, setEntry, heard_table]
  rfl

/-- Settles O37: REPLY and ACK answer the SENT entry they match, and are late otherwise. -/
theorem answersToRequests : Obligations.AnswersToRequests := by
  intro x tag issue attempt status page version count ws s hheld hs hx hw
  have hreply := exec_replyFrame_of_hears (tag := tag) (issue := issue) (attempt := attempt) (page := page)
    (version := version) hheld hs hx hw
  have hack := exec_ackFrame_of_hears (tag := tag) (issue := issue) (attempt := attempt) (status := status) hheld hs hx
  refine ⟨heard x false s, heard_hears x false s, fun h => ⟨hreply.trans ?_, hack.trans ?_⟩, fun st hst => ?_⟩
  · rw [withStatus_of_unknown h]
  · rw [withStatus_of_unknown h]
  rw [withStatus_of_code hst] at hreply hack
  refine ⟨fun r k hr hk hown hi ha => ⟨fun hkind hp => ?_, fun words hkind => hack.trans (congrArg _ ?_)⟩,
    fun h => hreply.trans (congrArg _ (takeReply_of_late (by simpa only [heard_table] using h))),
    fun h => hack.trans (congrArg _ (takeAck_of_late (by simpa only [heard_table] using h)))⟩
  · have hans : r.answers x issue attempt = true := answers_iff.2 ⟨⟨k, hk⟩, hown, hi, ha⟩
    have htake := takeReply_of_match (st := st) (v := version) (ws := ws) (s := heard x false s) (by rwa [heard_table]) hans hp
    rw [hkind] at htake
    have hread := hreply.trans (congrArg _ htake)
    refine ⟨fun hdone hlen => hread.trans (congrArg _ ?_), fun hdone hlen => hread.trans (congrArg _ ?_),
      fun hdone => hread.trans (congrArg _ ?_)⟩ <;> simp only [readAnswered]
    · rw [if_pos hdone, if_pos hlen, requestAnswered_heard]
    · rw [if_pos hdone, if_neg hlen]
    · rw [if_neg hdone, requestAnswered_heard]
  · rw [takeAck_of_match (by rwa [heard_table]) (answers_iff.2 ⟨⟨k, hk⟩, hown, hi, ha⟩) hkind, requestAnswered_heard]

theorem refreshAnswered_table (p : PageNo) (d : MirrorDesc) (r : MirrorRun) (st : RemoteStatus) (v : Byte) (ws : List Word)
    (s : State) : (refreshAnswered p d r st v ws s).table = s.table := by
  unfold refreshAnswered
  split
  · rw [refreshFailed_only]
  split
  · rw [refreshFailed_only]
    rfl
  split
  · rw [refreshFailed_only]
  · rw [refreshFailed_only]
  · split
    · rw [applyToMirror_only]
    · rfl

theorem refreshAnswered_of_done {p : PageNo} {d : MirrorDesc} {m : MirrorRun} {l : Byte} (he : m.state ≠ .empty)
    (hl : m.last = some l) (v : Byte) {ws : List Word} (hw : ws.length = 64) (s : State) :
    refreshAnswered p d m .done v ws s =
      if (v - l).toNat < 128 then applyToMirror p d 0 ws v .fresh .none s
      else advance .oldUpdates (setVariant p (.mirror d { m with mark := .none }) s) := by
  unfold refreshAnswered
  rw [if_neg (by simp), if_neg (show ¬ ws.length ≠ Config.pageWords from not_not.2 hw)]
  split
  · next h => exact absurd h he
  · next h _ => exact nomatch hl.symm.trans h
  · next h _ =>
    cases hl.symm.trans h
    rfl

theorem exists_remoteCode_eq {b : Byte} (h : b.toNat ≤ 4) : ∃ st, remoteCode st = b ∧ (b = 0 ↔ st = .done) := by
  have hb : b.toNat = 0 ∨ b.toNat = 1 ∨ b.toNat = 2 ∨ b.toNat = 3 ∨ b.toNat = 4 := by omega
  rcases hb with h | h | h | h | h
  · obtain rfl : b = 0 := BitVec.eq_of_toNat_eq h
    exact ⟨.done, rfl, by decide⟩
  · obtain rfl : b = 1 := BitVec.eq_of_toNat_eq h
    exact ⟨.notOwner, rfl, by decide⟩
  · obtain rfl : b = 2 := BitVec.eq_of_toNat_eq h
    exact ⟨.disputed, rfl, by decide⟩
  · obtain rfl : b = 3 := BitVec.eq_of_toNat_eq h
    exact ⟨.refused, rfl, by decide⟩
  · obtain rfl : b = 4 := BitVec.eq_of_toNat_eq h
    exact ⟨.range, rfl, by decide⟩

theorem byteOf_toNat_of_page (p : PageNo) : (byteOf p.val).toNat = p.val := by
  have := p.isLt
  simp only [byteOf, BitVec.toNat_ofNat]
  omega

/-- Settles O38: the entry is freed whatever the answer makes of the mirror. -/
theorem refreshReplies : Obligations.RefreshReplies := by
  intro tag attempt status version count ws r k d m l s hheld hs hx hmem hw hr hk hkind hown ha hv he hl hstatus
  obtain ⟨st, hst, hzero⟩ := exists_remoteCode_eq hstatus
  obtain ⟨g, hg⟩ : ∃ g, g = heard d.owner false s := ⟨_, rfl⟩
  have hvar : g.variant r.page = .mirror d m := by rw [hg, heard_variant]; exact hv
  have hsound : MemorySound g := by unfold MemorySound; rw [hg, heard_memory]; exact hmem
  have hans : r.answers d.owner r.issue attempt = true := answers_iff.2 ⟨⟨k, hk⟩, hown, rfl, ha⟩
  refine ⟨g, refreshAnswered r.page d m st version ws g, hg ▸ heard_hears d.owner false s, ?_, fun h0 hlen hdist => ?_,
    fun h0 hlen hdist => ?_, fun h0 hlen => ?_, fun h0 => ?_⟩
  · refine (exec_replyFrame_of_hears hheld hs hx hw).trans ?_
    rw [withStatus_of_code hst, ← hg, takeReply_of_match (by rw [hg, heard_table]; exact hr) hans (byteOf_toNat_of_page r.page).symm,
      hkind]
    simp only [hvar]
    rw [if_pos trivial, setEntry, refreshAnswered_table, hg, heard_table]
  · rw [hzero.1 h0, refreshAnswered_of_done he hl version hlen, if_pos (by omega)]
    exact applyToMirror_applies hsound d (by omega) version .fresh .none
  · rw [hzero.1 h0, refreshAnswered_of_done he hl version hlen, if_neg (by omega)]
  · rw [hzero.1 h0, refreshAnswered, if_neg (by simp), if_pos (show ws.length ≠ Config.pageWords from hlen)]
    exact refreshFailed_of_mirror (s := advance .malformed g) hvar he
  · rw [refreshAnswered, if_pos (mt hzero.2 h0), refreshFailed_of_mirror hvar he]

end Sys2Proof.Machine
end

section
/-! PROOF. ANNOUNCE: the dispute check and the actions of the JOIN flag, as changes of the pages and of the REFRESH entries; and the
receiver's reports. -/

namespace Sys2Proof.Machine

/-! ### REFRESH entries freed (R66, R90, R170) -/

/-- The origins of the frames that go with disputed pages and freed entries (R143). -/
def dropsFor (newly : PageNo → Bool) (freed : Request → Bool) (s : State) : Origin → Bool
  | .update p => newly p
  | .request u => s.table[u].any fun r => freed r && r.isFramed
  | _ => false

/-- The entries that `freed` chooses become FREE, with their tags and frames, and the UPDATE frames of the pages that `newly`
chooses are discarded. -/
structure FreesRefreshes (newly : PageNo → Bool) (freed : Request → Bool) (s t : State) : Prop where
  table : ∀ u : Tag, t.table[u] = s.table[u].bind fun r => if freed r then none else some r
  order : t.sendOrder = s.sendOrder.filter fun u => !(s.table[u].any freed)
  buffer : t.buffer = discarded (dropsFor newly freed s) s.buffer

theorem FreesRefreshes.refl (s : State) : FreesRefreshes (fun _ => false) (fun _ => false) s s := by
  have hdrop : dropsFor (fun _ => false) (fun _ => false) s = fun _ => false := by
    funext o
    cases o with
    | request u => simp [dropsFor]
    | _ => rfl
  refine ⟨fun u => by cases s.table[u] <;> rfl, ?_, by rw [hdrop, discarded_none]⟩
  simp

theorem FreesRefreshes.trans {newly₁ newly₂ : PageNo → Bool} {freed₁ freed₂ : Request → Bool} {s t u : State}
    (h₁ : FreesRefreshes newly₁ freed₁ s t) (h₂ : FreesRefreshes newly₂ freed₂ t u) :
    FreesRefreshes (fun p => newly₁ p || newly₂ p) (fun r => freed₁ r || freed₂ r) s u := by
  have hany : ∀ (v : Tag) (q : Request → Bool), t.table[v].any q = s.table[v].any fun r => !freed₁ r && q r := fun v q => by
    rw [h₁.table]
    cases s.table[v] with
    | none => rfl
    | some r => cases h : freed₁ r <;> simp [h]
  refine ⟨fun v => ?_, ?_, ?_⟩
  · rw [h₂.table, h₁.table]
    cases s.table[v] with
    | none => rfl
    | some r => cases h : freed₁ r <;> simp [h]
  · rw [h₂.order, h₁.order, List.filter_filter]
    refine List.filter_congr fun v _ => ?_
    rw [hany]
    cases s.table[v] with
    | none => rfl
    | some r => cases h : freed₁ r <;> simp [h]
  · rw [h₂.buffer, h₁.buffer, discarded_discarded]
    congr 1
    funext o
    cases o with
    | request v =>
      simp only [dropsFor, hany]
      cases s.table[v] with
      | none => rfl
      | some r => cases h : freed₁ r <;> simp [h]
    | _ => rfl

/-- A change of fields that the request unit does not read. -/
theorem FreesRefreshes.congr {newly : PageNo → Bool} {freed : Request → Bool} {s s' t t' : State}
    (h : FreesRefreshes newly freed s t) (hs : s'.table = s.table ∧ s'.sendOrder = s.sendOrder ∧ s'.buffer = s.buffer)
    (ht : t'.table = t.table ∧ t'.sendOrder = t.sendOrder ∧ t'.buffer = t.buffer) : FreesRefreshes newly freed s' t' := by
  obtain ⟨hst, hso, hsb⟩ := hs
  obtain ⟨htt, hto, htb⟩ := ht
  have hdrop : dropsFor newly freed s' = dropsFor newly freed s := by
    funext o
    cases o with
    | request u => simp only [dropsFor, hst]
    | _ => rfl
  exact ⟨fun u => by rw [htt, hst]; exact h.table u, by rw [hto, hso, hst]; exact h.order,
    by rw [htb, hsb, hdrop]; exact h.buffer⟩

/-- REFRESH entries ended from outside are freed, and no flag is set. -/
theorem endRequests_frees (sel : Request → Bool) (why : LocalReason) (s : State) :
    FreesRefreshes (fun _ => false) (fun r => r.isOpen && (r.isRefresh && sel r)) s
        (endRequests (fun r => r.isRefresh && sel r) why s) ∧
      (endRequests (fun r => r.isRefresh && sel r) why s).flags = s.flags := by
  rw [endRequests_eq]
  refine ⟨⟨fun u => ?_, List.filter_congr fun u _ => ?_, congrArg (discarded · s.buffer) (funext fun o => ?_)⟩, if_neg ?_⟩
  · simp only [Fin.getElem_fin, mapTable_getElem]
    unfold endEntry
    cases s.table[u.val] with
    | none => rfl
    | some r => cases ho : r.isOpen <;> cases hr : r.isRefresh <;> cases hs : sel r <;> simp [ho, hr, hs]
  · unfold State.openHit
    cases s.table[u] <;> rfl
  · cases o with
    | request u =>
      simp only [endsFrame, dropsFor, State.framedHit]
      cases s.table[u] <;> rfl
    | _ => rfl
  · intro h
    obtain ⟨u, -, hu⟩ := List.any_eq_true.1 h
    unfold State.hostHit at hu
    split at hu
    · next r _ => cases hr : r.isRefresh <;> simp [hr] at hu
    · exact nomatch hu

/-! ### The dispute check (R169, R170) -/

/-- The pages that `newly` chooses become DISPUTED (R170). -/
structure DisputesChecked (newly : PageNo → Bool) (s t : State) : Prop where
  disputed : ∀ p : PageNo, t.disputed p = (s.disputed p || newly p)
  variant : ∀ p : PageNo, t.variant p = if newly p then (s.variant p).withMark .none else s.variant p
  frees : FreesRefreshes newly (fun r => r.isOpen && (r.isRefresh && newly r.page)) s t
  flags : t.flags = if ∃ p, newly p = true then s.flags ||| 0x10#8 else s.flags
  publishQueue : t.publishQueue = s.publishQueue.filter fun e => !newly e.1
  only : t = { s with
    pages := t.pages, table := t.table, sendOrder := t.sendOrder, buffer := t.buffer, flags := t.flags
    publishQueue := t.publishQueue }

theorem flagDisputed_variant (sel : PageNo → Bool) (s : State) (p : PageNo) :
    (flagDisputed sel s).variant p = if sel p then (s.variant p).withMark .none else s.variant p := by
  simp only [flagDisputed, State.variant, Fin.getElem_fin, mapTable_getElem]
  split <;> rfl

theorem flagDisputed_disputed (sel : PageNo → Bool) (s : State) (p : PageNo) :
    (flagDisputed sel s).disputed p = (s.disputed p || sel p) := by
  simp only [flagDisputed, State.disputed, Fin.getElem_fin, mapTable_getElem]
  split <;> simp_all

theorem discarded_updates_frees (newly : PageNo → Bool) (s : State) :
    FreesRefreshes newly (fun _ => false) s
      (discardFrame (fun o => match o with | .update p => newly p | _ => false) s) := by
  have hdrop : (fun o : Origin => match o with | .update p => newly p | _ => false) = dropsFor newly (fun _ => false) s := by
    funext o
    cases o with
    | request u => simp [dropsFor]
    | _ => rfl
  rw [hdrop, discardFrame_eq]
  exact ⟨fun u => by cases s.table[u] <;> rfl, by simp, rfl⟩

theorem becomeDisputed_frees (newly : PageNo → Bool) (s : State) :
    FreesRefreshes newly (fun r => r.isOpen && (r.isRefresh && newly r.page)) s (becomeDisputed newly s) ∧
      (becomeDisputed newly s).flags = s.flags := by
  have honly := flagDisputed_only newly s
  rw [becomeDisputed_eq]
  generalize flagDisputed newly s = u at honly
  have hdiscard := discarded_updates_frees newly u
  have hsame := discardFrame_only (fun o => match o with | .update p => newly p | _ => false) u
  generalize discardFrame (fun o => match o with | .update p => newly p | _ => false) u = v at hdiscard hsame
  obtain ⟨hend, hflags⟩ := endRequests_frees (fun r => newly r.page) .ownerLost v
  have h := hdiscard.trans hend
  simp only [Bool.or_false, Bool.false_or] at h
  refine ⟨h.congr ?_ ⟨rfl, rfl, rfl⟩, hflags.trans ?_⟩
  · rw [honly]
    exact ⟨rfl, rfl, rfl⟩
  · rw [hsame, honly]

theorem becomeDisputed_pages (newly : PageNo → Bool) (s : State) :
    (becomeDisputed newly s).pages = (flagDisputed newly s).pages := by
  rw [becomeDisputed_eq, endRequests_pages, discardFrame_eq]

/-- The pages that an ANNOUNCE contradicts for the first time. -/
def newlyDisputed (x : Station) (owned : PageSet) (s : State) (p : PageNo) : Bool :=
  inDispute x owned p (s.variant p) && !s.disputed p

theorem disputeCheck_eq (x : Station) (owned : PageSet) (s : State) :
    disputeCheck x owned s =
      if (List.finRange 64).any (newlyDisputed x owned s) then
        setFlag .dispute (becomeDisputed (newlyDisputed x owned s) s)
      else s := rfl

theorem disputeCheck_checks (x : Station) (owned : PageSet) (s : State) :
    DisputesChecked (newlyDisputed x owned s) s (disputeCheck x owned s) := by
  rw [disputeCheck_eq]
  generalize newlyDisputed x owned s = newly
  by_cases h : (List.finRange 64).any newly = true
  · rw [if_pos h]
    obtain ⟨p, -, hp⟩ := List.any_eq_true.1 h
    obtain ⟨hfrees, hflags⟩ := becomeDisputed_frees newly s
    have hpages := becomeDisputed_pages newly s
    have honly := becomeDisputed_only newly s
    generalize becomeDisputed newly s = t at hfrees hflags hpages honly
    refine ⟨fun q => ?_, fun q => ?_, hfrees.congr ⟨rfl, rfl, rfl⟩ ⟨rfl, rfl, rfl⟩, ?_, ?_, ?_⟩
    · exact (congrArg (fun v : Vector Page 64 => v[q].disputed) hpages).trans (flagDisputed_disputed newly s q)
    · exact (congrArg (fun v : Vector Page 64 => v[q].variant) hpages).trans (flagDisputed_variant newly s q)
    · rw [if_pos ⟨p, hp⟩, setFlag_flags, hflags]
      rfl
    · rw [setFlag_publishQueue, honly]
    · rw [setFlag, honly]
  · have hnone : newly = fun _ => false := funext fun p => Bool.eq_false_iff.2 fun hp =>
      h (List.any_eq_true.2 ⟨p, List.mem_finRange p, hp⟩)
    rw [if_neg h]
    subst hnone
    have hfrees := FreesRefreshes.refl s
    refine ⟨fun p => (Bool.or_false _).symm, fun p => rfl, ?_, (if_neg (by simp)).symm, (by simp), rfl⟩
    simpa only [Bool.and_false] using hfrees

/-! ### The actions of the JOIN flag (R66, R90, R107, R168) -/

/-- What the JOIN flag of an ANNOUNCE from `x` adds. -/
structure JoinFlagTaken (j : Bool) (x : Station) (s t : State) : Prop where
  disputed : ∀ p : PageNo, t.disputed p = s.disputed p
  variant : ∀ p : PageNo, t.variant p =
    match s.variant p with
    | .mirror d r => if j = true ∧ d.owner = x then .mirror d MirrorRun.start else .mirror d r
    | v => v
  frees : FreesRefreshes (fun _ => false) (fun r => r.isOpen && (r.isRefresh && (j && decide (r.owner = x)))) s t
  flags : t.flags = s.flags
  publishQueue : t.publishQueue =
    if j = true ∧ s.station = .active then queuedInOrder s.eligible .full s.publishQueue else s.publishQueue
  filter : t.filter = if j then s.filter.filter fun h => h.writer ≠ x else s.filter
  responseMark : t.responseMark = (s.responseMark || (j && s.station = .active))
  only : t = { s with
    pages := t.pages, table := t.table, sendOrder := t.sendOrder, buffer := t.buffer
    publishQueue := t.publishQueue, filter := t.filter, responseMark := t.responseMark }

/-- The mirrors of `x` set EMPTY. -/
def mirrorsEmptied (x : Station) (s : State) : State :=
  mapVariants (fun _ v =>
    match v with
    | .mirror d r => if d.owner = x then .mirror d MirrorRun.start else .mirror d r
    | v => v) s

theorem ownerRejoined_eq (x : Station) (s : State) :
    ownerRejoined x s =
      { endRequests (fun r => r.isRefresh && decide (r.owner = x)) .ownerLost (mirrorsEmptied x s) with
        filter := s.filter.filter fun f => f.writer ≠ x } := by
  have hfilter : (endRequests (fun r => r.isRefresh && decide (r.owner = x)) .ownerLost (mirrorsEmptied x s)).filter =
      s.filter := by
    rw [endRequests_eq, mirrorsEmptied, mapVariants_only]
  show { endRequests (fun r => r.isRefresh && decide (r.owner = x)) .ownerLost (mirrorsEmptied x s) with
    filter := (endRequests (fun r => r.isRefresh && decide (r.owner = x)) .ownerLost (mirrorsEmptied x s)).filter.filter
      fun f => f.writer ≠ x } = _
  rw [hfilter]

theorem ownerRejoined_frees (x : Station) (s : State) :
    FreesRefreshes (fun _ => false) (fun r => r.isOpen && (r.isRefresh && decide (r.owner = x))) s (ownerRejoined x s) ∧
      (ownerRejoined x s).flags = s.flags := by
  obtain ⟨hend, hflags⟩ := endRequests_frees (fun r => decide (r.owner = x)) .ownerLost (mirrorsEmptied x s)
  have hempty : (mirrorsEmptied x s) = { s with pages := (mirrorsEmptied x s).pages } := by
    rw [mirrorsEmptied, mapVariants_only]
  rw [ownerRejoined_eq]
  generalize endRequests (fun r => r.isRefresh && decide (r.owner = x)) .ownerLost (mirrorsEmptied x s) = t at hend hflags
  refine ⟨hend.congr ?_ ⟨rfl, rfl, rfl⟩, hflags.trans ?_⟩
  · rw [hempty]
    exact ⟨rfl, rfl, rfl⟩
  · rw [hempty]

theorem ownerRejoined_disputed (x : Station) (s : State) (p : PageNo) :
    (ownerRejoined x s).disputed p = s.disputed p := by
  rw [ownerRejoined_eq]
  exact endRequests_mapVariants_disputed ..

theorem ownerRejoined_variant (x : Station) (s : State) (p : PageNo) :
    (ownerRejoined x s).variant p =
      match s.variant p with
      | .mirror d r => if d.owner = x then .mirror d MirrorRun.start else .mirror d r
      | v => v := by
  rw [ownerRejoined_eq]
  exact endRequests_mapVariants_variant ..

theorem ownerRejoined_eligible (x : Station) (s : State) : (ownerRejoined x s).eligible = s.eligible := by
  funext p
  unfold State.eligible
  rw [ownerRejoined_disputed, ownerRejoined_variant]
  cases s.variant p with
  | mirror d r =>
    simp only
    split
    · next h => split at h <;> exact nomatch h
    · rfl
  | _ => rfl

theorem joinFlagActions_eq (x : Station) (s : State) :
    joinFlagActions x s = { ownerRejoined x s with
      publishQueue :=
        if s.station = .active then queuedInOrder s.eligible .full s.publishQueue else s.publishQueue
      responseMark := s.responseMark || decide (s.station = .active) } := by
  have honly := ownerRejoined_only x s
  have helig := ownerRejoined_eligible x s
  have hdef : joinFlagActions x s =
      if (ownerRejoined x s).station = .active then publishAll { ownerRejoined x s with responseMark := true }
      else ownerRejoined x s := rfl
  rw [hdef]
  generalize ownerRejoined x s = u at honly helig
  have hst : u.station = s.station := by rw [honly]
  have hqueue : u.publishQueue = s.publishQueue := by rw [honly]
  have hmark : u.responseMark = s.responseMark := by rw [honly]
  by_cases hs : s.station = .active
  · rw [if_pos (hst.trans hs), if_pos hs, decide_eq_true hs, Bool.or_true, ← helig, ← hqueue]
    exact publishAll_eq (s := { u with responseMark := true }) (hst.trans hs)
  · rw [if_neg (fun h => hs (hst.symm.trans h)), if_neg hs, decide_eq_false hs, Bool.or_false, ← hqueue, ← hmark]

theorem joinFlag_taken (j : Bool) (x : Station) (s : State) :
    JoinFlagTaken j x s (if j then joinFlagActions x s else s) := by
  cases j with
  | false =>
    have hfrees := FreesRefreshes.refl s
    rw [if_neg (by simp)]
    refine ⟨fun p => rfl, fun p => ?_, ?_, rfl, (if_neg (by simp)).symm, rfl, (Bool.or_false _).symm, rfl⟩
    · cases s.variant p <;> simp
    · simpa only [Bool.false_and, Bool.and_false] using hfrees
  | true =>
    have honly := ownerRejoined_only x s
    have hdis := ownerRejoined_disputed x s
    have hvar := ownerRejoined_variant x s
    obtain ⟨hfrees, hflags⟩ := ownerRejoined_frees x s
    rw [if_pos rfl, joinFlagActions_eq]
    generalize ownerRejoined x s = u at honly hdis hvar hfrees hflags
    refine ⟨fun p => hdis p, fun p => (hvar p).trans ?_, ?_, hflags, ?_, ?_, rfl, ?_⟩
    · cases s.variant p <;> simp
    · simp only [Bool.true_and]
      exact hfrees.congr ⟨rfl, rfl, rfl⟩ ⟨rfl, rfl, rfl⟩
    · simp
    · show u.filter = _
      rw [honly]
      rfl
    · have hflags' := hflags
      generalize u.flags = flags at hflags' honly
      subst hflags'
      rw [honly]

/-! ### ANNOUNCE (R168 to R170) -/

theorem inDispute_iff (x : Station) (owned : PageSet) (p : PageNo) (v : PageVariant) :
    inDispute x owned p v = true ↔
      (v.isOwn = true ∧ owned.getLsbD p.val = true) ∨
        (∃ y, v.peerOwner = some y ∧ y ≠ x ∧ owned.getLsbD p.val = true) ∨
        (v.peerOwner = some x ∧ owned.getLsbD p.val = false) := by
  cases v with
  | none => simp [inDispute, PageVariant.isOwn, PageVariant.peerOwner]
  | own d r => simp [inDispute, PageVariant.isOwn, PageVariant.peerOwner]
  | mirror d r => by_cases h : d.owner = x <;> simp [inDispute, PageVariant.isOwn, PageVariant.peerOwner, h]
  | fetch d => by_cases h : d.owner = x <;> simp [inDispute, PageVariant.isOwn, PageVariant.peerOwner, h]

theorem recordOwned_only (x : Station) (owned : PageSet) (limit : Byte) (s : State) :
    recordOwned x owned limit s = { s with peers := (recordOwned x owned limit s).peers } := rfl

theorem recordOwned_peers (x y : Station) (owned : PageSet) (limit : Byte) (s : State) :
    (recordOwned x owned limit s).peers[y] =
      if y = x then { s.peers[x] with announced := some (owned, limit) } else s.peers[y] :=
  setPeer_getElem x y _ s

/-- An ANNOUNCE of ring size N after the end of its frame: the record, the dispute check, then the JOIN flag. -/
def announced (x : Station) (j : Bool) (silence : Byte) (owned : PageSet) (g : State) : State :=
  let u := disputeCheck x owned (recordOwned x owned silence g)
  if j then joinFlagActions x u else u

theorem takeAnnounce_of_ring {x : Station} {j : Bool} {ring silence : Byte} {owned : PageSet} {s : State}
    (h : ring.toNat = s.record.ring) :
    takeAnnounce x j ring silence owned s = announced x j silence owned (renewPresence x s) :=
  if_neg (not_not.2 h)

theorem takeAnnounce_of_other {x : Station} {j : Bool} {ring silence : Byte} {owned : PageSet} {s : State}
    (h : ring.toNat ≠ s.record.ring) (hs : s.station ≠ .joining) :
    takeAnnounce x j ring silence owned s = advance .malformed (renewPresence x s) :=
  (if_pos h).trans (if_neg hs)

theorem announced_takes (x : Station) (j : Bool) (silence : Byte) (owned : PageSet) (g : State) :
    ∃ w u, w = recordOwned x owned silence g ∧ DisputesChecked (newlyDisputed x owned w) w u ∧
      JoinFlagTaken j x u (announced x j silence owned g) :=
  ⟨_, _, rfl, disputeCheck_checks x owned _, joinFlag_taken j x _⟩

theorem eligible_of_disputes {newly : PageNo → Bool} {s t : State} (h : DisputesChecked newly s t) (p : PageNo) :
    t.eligible p = (s.eligible p && !newly p) := by
  unfold State.eligible
  rw [h.disputed, h.variant]
  cases hv : s.variant p with
  | own d r => cases hn : newly p <;> simp [PageVariant.withMark]
  | _ => cases hn : newly p <;> rfl


/-- Settles O39: the record, the dispute check and the JOIN flag, one after another. -/
theorem announceFrames : Obligations.AnnounceFrames := by
  intro x j ring silence owned s hheld hs hx
  have hexec : exec (.announceFrame x j ring silence owned) s =
      .next (takeAnnounce x j ring silence owned (goodEnd (some x) false s)) :=
    next_of_effect hheld (frameFrom_of_hears hx hs _ _)
  have hhears := heard_hears x false s
  obtain ⟨g, hg⟩ : ∃ g, g = heard x false s := ⟨_, rfl⟩
  refine ⟨heard x false s, hhears, fun hring hst => hexec.trans (congrArg _ (takeAnnounce_of_other hring hst)),
    fun hring newly hnewly freed hfreed =>
      ⟨announced x j silence owned (heard x false s), hexec.trans (congrArg _ (takeAnnounce_of_ring hring)), ?_⟩⟩
  have hstation := heard_station x false s
  have hvariant := heard_variant x false s
  have hdisputed := heard_disputed x false s
  have helig : (heard x false s).eligible = s.eligible := by
    funext p
    unfold State.eligible
    rw [hvariant, hdisputed]
  have hfields : (heard x false s).table = s.table ∧ (heard x false s).sendOrder = s.sendOrder ∧
      (heard x false s).buffer = s.buffer ∧ (heard x false s).publishQueue = s.publishQueue ∧
      (heard x false s).filter = s.filter ∧ (heard x false s).responseMark = s.responseMark := by
    rw [heard_only]
    exact ⟨rfl, rfl, rfl, rfl, rfl, rfl⟩
  obtain ⟨htable, horder, hbuffer, hqueue, hfilter, hmark⟩ := hfields
  obtain ⟨hpeers, -⟩ := hhears
  rw [← hg] at hstation hvariant hdisputed helig htable horder hbuffer hqueue hfilter hmark hpeers ⊢
  obtain ⟨w, u, hw, hD, hJ⟩ := announced_takes x j silence owned g
  generalize announced x j silence owned g = t at hJ ⊢
  have hwpeers : ∀ y : Station, _ := fun y => recordOwned_peers x y owned silence g
  rw [recordOwned_only] at hw
  have hnew : newlyDisputed x owned w = newly := funext fun p => Bool.eq_iff_iff.2 (by
    have hv : w.variant p = s.variant p := by rw [hw]; exact hvariant p
    have hd : w.disputed p = s.disputed p := by rw [hw]; exact hdisputed p
    rw [newlyDisputed, hv, hd, Bool.and_eq_true, inDispute_iff, hnewly, Bool.not_eq_true', and_comm])
  have hfree : freed = fun r => (r.isOpen && (r.isRefresh && newly r.page)) ||
      (r.isOpen && (r.isRefresh && (j && decide (r.owner = x)))) := funext fun r => Bool.eq_iff_iff.2 (by
    rw [hfreed]
    simp only [Bool.or_eq_true, Bool.and_eq_true, decide_eq_true_eq]
    tauto)
  rw [hnew] at hD
  have hfrees := hD.frees.trans hJ.frees
  simp only [Bool.or_false] at hfrees
  rw [← hfree] at hfrees
  have hfrees' : FreesRefreshes newly freed s t := hfrees.congr (by rw [hw]; exact ⟨htable.symm, horder.symm, hbuffer.symm⟩) ⟨rfl, rfl, rfl⟩
  have hust : u.station = s.station := by rw [hD.only, hw]; exact hstation
  have huelig : u.eligible = fun p => s.eligible p && !newly p := funext fun p => by
    rw [eligible_of_disputes hD, hw]
    exact congrArg (· && !newly p) (congrFun helig p)
  have huqueue : u.publishQueue = s.publishQueue.filter fun e => !newly e.1 := by
    rw [hD.publishQueue, hw]
    exact congrArg _ hqueue
  refine ⟨fun y => ?_, fun p => ⟨?_, ?_⟩, hfrees'.table, hfrees'.order, ?_, ?_, ?_, ?_, ?_, ?_⟩
  · have hty : t.peers = (recordOwned x owned silence g).peers := by rw [hJ.only, hD.only, hw]
    rw [hty, hwpeers]
    split
    · rfl
    · next h => rw [hpeers, if_neg h]
  · rw [hJ.disputed, hD.disputed, hw]
    exact congrArg (· || newly p) (hdisputed p)
  · have hv : w.variant p = s.variant p := by rw [hw]; exact hvariant p
    rw [hJ.variant, hD.variant, hv]
    cases s.variant p with
    | mirror d r => cases newly p <;> rfl
    | _ => cases newly p <;> rfl
  · rw [hfrees'.buffer]
    cases s.buffer with
    | none => rfl
    | some f =>
      simp only [discarded, Option.bind_some]
      cases f.origin <;> rfl
  · rw [hJ.flags, hD.flags, hw]
  · rw [hJ.publishQueue, hust, huelig, huqueue]
  · have huf : u.filter = s.filter := by rw [hD.only, hw]; exact hfilter
    rw [hJ.filter, huf]
  · have hum : u.responseMark = s.responseMark := by rw [hD.only, hw]; exact hmark
    rw [hJ.responseMark, hum, hust]
  · have h := hJ.only
    rw [hD.only, hw] at h
    rw [h]

/-! ### The receiver's reports (R117, R118, R135) -/

/-- Settles O40: each report by the receiver's state. -/
theorem receiverReports : Obligations.ReceiverReports := by
  intro s hheld hs
  have hline : s.onLine = true := by simpa [State.onLine] using hs
  have hactivity : ∀ {t : State}, (match s.receiver with
      | .resting => { s with receiver := .receiving, accessTimer := none, windowOpen := false, listen := s.listen.map fun _ => 0 }
      | .receiving => { s with listen := s.listen.map fun _ => 0 }
      | .recovering cause _ => { s with receiver := .recovering cause.later 0, listen := s.listen.map fun _ => 0 }) = t →
      exec .activityStart s = .next t := fun h => next_of_effect hheld ((if_pos hline).trans h)
  refine ⟨fun hr => hactivity (by rw [hr]), fun hr => hactivity (by rw [hr]),
    fun cause n hr => hactivity (by rw [hr, ← RecoveryCause.later_eq]), fun why quiet hr hwhy => next_of_effect hheld ?_,
    fun why cause n hr => next_of_effect hheld ?_, fun n hr ht => next_of_effect hheld ?_,
    fun cause n hr hc => next_of_effect hheld ?_, fun n hj hl hr => next_of_effect hheld ?_⟩
  · have hquiet : why.quiet = quiet := by
      rcases hwhy with rfl | rfl | ⟨rfl, rfl | rfl | rfl⟩ <;> rfl
    rw [foundBrokenEffect, if_pos hline, hquiet]
    rcases hr with hr | hr <;> (rw [hr]; rfl)
  · rw [foundBrokenEffect, if_pos hline, hr]
  · rw [brokenFrameEndEffect, if_pos (by simp [hline, ht]), hr]
    cases s.listen <;> rfl
  · rw [if_pos hline, recoveringEndEffect, hr]
    cases cause with
    | brokenFrame => exact absurd rfl hc
    | _ => rfl
  · exact if_pos ⟨hj, by rw [hl]; rfl, hr⟩


end Sys2Proof.Machine
end

section
/-! PROOF. Turns on the line: the rotation slot and the frame it chooses, the reply window, mismatch, abort and completion, and the
instants at which a transmission starts. -/

namespace Sys2Proof.Machine

/-! ### The rotation slot (R137 to R141) -/

/-- The state at the station's rotation slot. -/
def atSlot (s : State) : State := { s with accessTimer := some (s.record.wrapCount s.slotCount), windowOpen := false }

theorem rotationSlotEffect_of_running {s : State} {n : Nat} (hn : s.accessTimer = some n) :
    rotationSlotEffect s =
      if s.station.usesSlots && s.transmitter = .idle then selectFrame (atSlot s) else atSlot s := by
  rw [rotationSlotEffect, hn]
  rfl

theorem rotationSlotEffect_of_stopped {s : State} (hn : s.accessTimer = none) : rotationSlotEffect s = s := by
  rw [rotationSlotEffect, hn]

theorem usesSlots_iff (st : StationState) : st.usesSlots = true ↔ st = .joining ∨ st = .active ∨ st = .leaving := by
  cases st <;> simp [StationState.usesSlots]

theorem exec_rotationSlot_of_slot {s : State} {n : Nat} (hheld : s.resetHeld = false) (hn : s.accessTimer = some n)
    (hs : s.station = .joining ∨ s.station = .active ∨ s.station = .leaving) (ht : s.transmitter = .idle) :
    exec .rotationSlot s = .next (selectFrame (atSlot s)) :=
  next_of_effect hheld ((rotationSlotEffect_of_running hn).trans
    (if_pos (by rw [(usesSlots_iff _).2 hs, decide_eq_true ht]; rfl)))

theorem selectFrame_of_held {s : State} {f : TxFrame} (hf : s.buffer = some f) :
    selectFrame s = { s with buffer := some { f with driven := true }, transmitter := .sending 0 } := by
  rw [selectFrame, hf]

theorem selectFrame_of_empty {s : State} (hb : s.buffer = none) : selectFrame s = (buildFrame s).getD s := by
  rw [selectFrame, hb]

theorem buildFrame_of_joining {s : State} (hs : s.station = .joining) :
    buildFrame s = some (startFrame .joinAnnounce (s.announce true) s) := by
  rw [buildFrame, hs]

theorem buildFrame_of_leaving {s : State} (hs : s.station = .leaving) :
    buildFrame s = some (startFrame .leave (s.frame Config.toAll .leave) s) := by
  rw [buildFrame, hs]

theorem buildFrame_of_active {s : State} (hs : s.station = .active) :
    buildFrame s =
      (sendResponseAnnounce s).or ((sendAnswer s).or ((sendRequest s).or ((sendUpdate s).or (sendPresence s)))) := by
  rw [buildFrame, hs]

/-- Settles O42: the slot passes or the selector acts, on a held frame or on the frame of the station state. -/
theorem rotationSlots : Obligations.RotationSlots := by
  intro s hheld
  refine ⟨ownedSet_getLsbD s, fun hn => next_of_effect hheld (rotationSlotEffect_of_stopped hn), fun n slot hn hslot => ?_⟩
  subst hslot
  have hexec := fun hs ht => exec_rotationSlot_of_slot hheld hn hs ht
  refine ⟨atSlot s, rfl, fun h => next_of_effect hheld ((rotationSlotEffect_of_running hn).trans (if_neg ?_)),
    fun ht hs f hf => (hexec hs ht).trans (congrArg _ (selectFrame_of_held hf)),
    fun ht hb hs => (hexec (.inl hs) ht).trans (congrArg _ ?_),
    fun ht hb hs => (hexec (.inr (.inr hs)) ht).trans (congrArg _ ?_)⟩
  · rcases h with h | h
    · rw [h]; nofun
    · simp [h]
  · rw [selectFrame_of_empty (s := atSlot s) hb, buildFrame_of_joining (s := atSlot s) hs]
    rfl
  · rw [selectFrame_of_empty (s := atSlot s) hb, buildFrame_of_leaving (s := atSlot s) hs]
    rfl

/-! ### The choices of ACTIVE (Table 8.3) -/

theorem sendResponseAnnounce_eq (s : State) :
    sendResponseAnnounce s =
      if s.responseMark then some (startFrame .responseAnnounce (s.announce false) { s with responseMark := false })
      else none := rfl

theorem sendAnswer_of_cons {s : State} {e : ReplyEntry} {rest : List ReplyEntry} (h : s.replyQueue = e :: rest) :
    sendAnswer s = some (startFrame .answer (answerFrame s e) { s with replyQueue := rest }) := by
  rw [sendAnswer, h]

theorem sendAnswer_of_nil {s : State} (h : s.replyQueue = []) : sendAnswer s = none := by
  rw [sendAnswer, h]

theorem sendRequest_of_cons {s : State} {t : Tag} {rest : List Tag} {r : Request} (h : s.sendOrder = t :: rest)
    (hr : s.table[t] = some r) :
    sendRequest s =
      some (startFrame (.request t) (requestFrame s t r)
        { setEntry t (some { r with phase := .queued true }) s with sendOrder := rest }) := by
  rw [sendRequest, h]
  simp only
  rw [hr]

theorem sendRequest_of_nil {s : State} (h : s.sendOrder = []) : sendRequest s = none := by
  rw [sendRequest, h]

theorem sendUpdate_of_cons {s : State} {p : PageNo} {x : Extent} {rest : List (PageNo × Extent)} {d : OwnDesc} {r : OwnRun}
    (h : s.publishQueue = (p, x) :: rest) (hv : s.variant p = .own d r) :
    sendUpdate s =
      some (startFrame (.update p)
        (s.frame Config.toAll (.update (byteOf p.val) (r.version + 1) (byteOf (updateWords s p r.span x).1)
          (updateWords s p r.span x).2))
        { setVariant p (.own d { version := r.version + 1, span := none }) s with publishQueue := rest }) := by
  rw [sendUpdate, h]
  simp only
  rw [hv]

theorem sendUpdate_of_nil {s : State} (h : s.publishQueue = []) : sendUpdate s = none := by
  rw [sendUpdate, h]

/-- The frame of a request entry, by its kind (R77). -/
theorem requestFrame_of_body {s : State} {t : Tag} {r : Request} {body : FrameBody}
    (h : (∃ ws, r.kind = .write ws ∧ body = .write (byteOf r.page.val) (byteOf r.offset) t r.issue (byteOf r.attempt) ws) ∨
      ((r.kind = .read ∨ r.kind = .refresh) ∧
        body = .fetch (byteOf r.page.val) (byteOf r.offset) (byteOf r.count) t r.issue (byteOf r.attempt))) :
    requestFrame s t r = s.frame (byteOf r.owner.val) body := by
  unfold requestFrame
  rcases h with ⟨ws, hk, rfl⟩ | ⟨hk | hk, rfl⟩ <;> (rw [hk]; rfl)

/-- The words that an UPDATE carries, by its extent (R30). -/
theorem updateWords_of_extent {s : State} {p : PageNo} {span : Option Span} {x : Extent} {first count : Nat}
    (h : (x = .full ∧ first = 0 ∧ count = 64) ∨
      ∃ sp, x = .span ∧ span = some sp ∧ first = sp.low ∧ count = sp.high + 1 - sp.low) :
    updateWords s p span x = (first, (List.range count).map fun i => s.word p (first + i)) := by
  rw [← words_eq_map]
  rcases h with ⟨rfl, rfl, rfl⟩ | ⟨sp, rfl, rfl, rfl, rfl⟩ <;> rfl

/-- Settles O43: the first choice that yields a frame, one choice after another. -/
theorem activeSlotChoice : Obligations.ActiveSlotChoice := by
  intro n slot s hheld hs ht hb hn hslot
  subst hslot
  have hexec : exec .rotationSlot s = .next ((buildFrame (atSlot s)).getD (atSlot s)) :=
    (exec_rotationSlot_of_slot hheld hn (.inr (.inl hs)) ht).trans (congrArg _ (selectFrame_of_empty hb))
  rw [buildFrame_of_active (s := atSlot s) hs, sendResponseAnnounce_eq] at hexec
  refine ⟨atSlot s, rfl, fun hm => hexec.trans ?_, fun hm => ?_⟩
  · rw [if_pos (show (atSlot s).responseMark = true from hm)]
    rfl
  rw [if_neg (show ¬ (atSlot s).responseMark = true by rw [show (atSlot s).responseMark = false from hm]; nofun),
    Option.none_or] at hexec
  refine ⟨fun e rest x body hq hbody => hexec.trans ?_, fun hq => ?_⟩
  · rw [sendAnswer_of_cons (s := atSlot s) hq, answerFrame_of_answerIs (s := atSlot s) hbody]
    rfl
  rw [sendAnswer_of_nil (s := atSlot s) hq, Option.none_or] at hexec
  refine ⟨fun u rest r hu hr body hbody => hexec.trans ?_, fun hu => ?_⟩
  · rw [sendRequest_of_cons (s := atSlot s) hu hr, requestFrame_of_body hbody]
    rfl
  rw [sendRequest_of_nil (s := atSlot s) hu, Option.none_or] at hexec
  refine ⟨fun p x rest d r hp hv first count hextent => hexec.trans ?_, fun hp => ?_⟩
  · rw [sendUpdate_of_cons (s := atSlot s) hp hv, updateWords_of_extent hextent]
    rfl
  rw [sendUpdate_of_nil (s := atSlot s) hp, Option.none_or] at hexec
  refine ⟨fun hm => hexec.trans ?_, fun hm => hexec.trans ?_⟩
  · rw [sendPresence, if_pos (show (atSlot s).presenceMark = true from hm)]
    rfl
  · rw [sendPresence, if_neg (show ¬ (atSlot s).presenceMark = true by rw [show (atSlot s).presenceMark = false from hm]; nofun)]
    rfl

/-! ### The reply window (R136) -/

/-- The state at the reply window. -/
def atWindow (s : State) : State := { s with accessTimer := some 12, windowOpen := false }

theorem replyWindowEffect_of_open {s : State} {n : Nat} (hw : s.windowOpen = true) (hn : s.accessTimer = some n) :
    replyWindowEffect s =
      if s.station = .active ∧ s.buffer = none ∧ s.transmitter = .idle then (sendAnswer (atWindow s)).getD (atWindow s)
      else atWindow s :=
  if_pos (by rw [hw, hn]; rfl)

/-- Settles O44. -/
theorem replyWindowAnswers : Obligations.ReplyWindowAnswers := by
  intro n s hheld hw hn
  have hwindow := replyWindowEffect_of_open hw hn
  refine ⟨fun h => next_of_effect hheld (hwindow.trans ?_), fun hs hb ht e rest hq x body hbody =>
    next_of_effect hheld (hwindow.trans ?_)⟩
  · by_cases hc : s.station = .active ∧ s.buffer = none ∧ s.transmitter = .idle
    · rw [if_pos hc]
      obtain ⟨hs, hb, -⟩ := hc
      have hq : s.replyQueue = [] := (h.resolve_left (not_not.2 hs)).resolve_left (not_not.2 hb)
      rw [sendAnswer_of_nil (s := atWindow s) hq]
      rfl
    · exact if_neg hc
  · rw [if_pos ⟨hs, hb, ht⟩, sendAnswer_of_cons (s := atWindow s) hq, answerFrame_of_answerIs (s := atWindow s) hbody]
    rfl

/-! ### Mismatch, abort and the pins (R110, R122, R144) -/

/-- Settles O45: each row and pin by the state of the transmitter. -/
theorem mismatchAndAbort : Obligations.MismatchAndAbort := by
  intro s hheld
  refine ⟨fun n ht => next_of_effect hheld ?_, fun ht => next_of_effect hheld ?_, fun n ht hn => next_of_effect hheld ?_,
    fun ht => next_of_effect hheld ?_, fun ht => ?_, fun n ht => ?_, fun n f ht hf => ?_⟩
  · rw [readbackMismatchEffect, ht]
  · unfold readbackMismatchEffect
    split
    · next h => exact absurd h (ht _)
    · rfl
  · rw [abortEffect, ht]
    exact if_pos (show s.abortCount + 1 < 8 by omega)
  · unfold abortEffect
    split
    · next h => exact absurd h (ht _)
    · rfl
  · rw [State.lde, State.ltx, ht]
    exact ⟨rfl, rfl⟩
  · rw [State.lde, State.ltx, ht]
    exact ⟨rfl, decide_eq_true_iff⟩
  · rw [State.lde, State.ltx, ht, hf]
    exact ⟨rfl, rfl⟩

/-! ### Completions (R124, R146, R156) -/

theorem completionEffect_of_sending {s : State} {n : Nat} {f : TxFrame} (ht : s.transmitter = .sending n)
    (hf : s.buffer = some f) : completionEffect s = completionTold f.origin (frameSent s) := by
  rw [completionEffect, ht, hf]

theorem loadPeriodChannels_only (s : State) :
    loadPeriodChannels s = { s with channels := (loadPeriodChannels s).channels } := rfl

/-- A station just made ACTIVE, before its refresh claims (R156). -/
def opened (s : State) : State :=
  publishAll (loadPeriodChannels (loadPresenceTimer (setFlag .joined { s with station := .active })))

theorem enterActive_eq (s : State) : enterActive s = claimRefreshes (opened s) := rfl

theorem opened_eq (s : State) :
    opened s = { s with
      station := .active, flags := s.flags ||| 0x01#8, channels := (loadPeriodChannels s).channels
      presenceTimer := some { pre := 100, main := s.record.silence / 2, due := false }
      publishQueue := queuedInOrder s.eligible .full s.publishQueue } := by
  unfold opened
  rw [loadPeriodChannels_only]
  have hchannels : (loadPeriodChannels (loadPresenceTimer (setFlag .joined { s with station := .active }))).channels =
      (loadPeriodChannels s).channels := rfl
  rw [hchannels]
  generalize (loadPeriodChannels s).channels = channels
  exact publishAll_eq rfl

theorem loadPeriodChannels_getElem (s : State) (c : ChannelNo) :
    (loadPeriodChannels s).channels[c] =
      if s.channels[c].kind = .period then
        { s.channels[c] with run := some { pre := s.channels[c].prescale, main := s.channels[c].count, due := false } }
      else s.channels[c] := by
  simp only [loadPeriodChannels, Fin.getElem_fin, mapTable_getElem]
  rfl

theorem completionTold_of_plain {o : Origin} {s : State}
    (h : o = .responseAnnounce ∨ o = .presence ∨ o = .answer ∨ ∃ p, o = .update p) :
    completionTold o s = reloadPresence s := by
  rcases h with rfl | rfl | rfl | ⟨p, rfl⟩ <;> rfl

theorem requestSent_of_framed {t : Tag} {r : Request} {s : State} (hr : s.table[t] = some r) (hp : r.phase = .queued true) :
    requestSent t s =
      setEntry t (some { r with phase := .sent { pre := 10, main := s.record.replyTimeout, due := false } }) s := by
  rw [requestSent, hr]
  exact if_pos (by rw [Request.isFramed, hp])

theorem requestSent_of_not_framed {t : Tag} {s : State} (h : ∀ r, s.table[t] = some r → r.phase ≠ .queued true) :
    requestSent t s = s := by
  unfold requestSent
  split
  · next r hr =>
    refine if_neg fun hf => ?_
    unfold Request.isFramed at hf
    split at hf
    · next framed hp =>
      subst hf
      exact h r hr hp
    · exact nomatch hf
  · rfl

/-- Settles O46: what the access controller does, then what the frame's unit is told. -/
theorem completions : Obligations.Completions := by
  intro n f s hheld ht hf
  have hdone := completionEffect_of_sending ht hf
  refine ⟨frameSent s, rfl, fun ho hs => ?_, fun hs => ?_, fun hs ho => next_of_effect hheld (hdone.trans ?_)⟩
  · have hopened := opened_eq (frameSent s)
    refine ⟨opened (frameSent s), _, next_of_effect hheld (hdone.trans ?_),
      next_of_effect (by rw [hopened]; exact hheld) rfl, fun h => ?_, ?_⟩
    · rw [ho]
      exact if_pos hs
    · rw [hopened]
      exact loadPeriodChannels_getElem (frameSent s) h
    · generalize opened (frameSent s) = u at hopened
      generalize (loadPeriodChannels (frameSent s)).channels = channels at hopened
      subst hopened
      rfl
  · have hload : reloadPresence (frameSent s) = loadPresenceTimer (frameSent s) := if_pos hs
    refine ⟨loadPresenceTimer (frameSent s), rfl, fun ho => next_of_effect hheld (hdone.trans ?_),
      fun t r ho hr hp => next_of_effect hheld (hdone.trans ?_), fun t ho h => next_of_effect hheld (hdone.trans ?_)⟩
    · rw [completionTold_of_plain ho, hload]
    · rw [ho, completionTold, hload]
      exact requestSent_of_framed hr hp
    · rw [ho, completionTold, hload]
      exact requestSent_of_not_framed h
  · have hkeep : reloadPresence (frameSent s) = frameSent s :=
      if_neg (by rw [show (frameSent s).station = .leaving from hs]; nofun)
    rcases ho with ho | ho | ho | ho | ⟨t, ho, h⟩
    · rw [completionTold_of_plain (.inl ho), hkeep]
    · rw [completionTold_of_plain (.inr (.inl ho)), hkeep]
    · rw [completionTold_of_plain (.inr (.inr (.inl ho))), hkeep]
    · rw [completionTold_of_plain (.inr (.inr (.inr ho))), hkeep]
    · rw [ho, completionTold, hkeep]
      exact requestSent_of_not_framed h

/-! ### The start of a transmission (R133) -/

/-- A move that starts no transmission leaves the transmitter IDLE. -/
theorem Move.transmitter_idle {E : Effect → Prop} {s t : State} (h : Move E s t) (hstart : ¬ E .start)
    (hs : s.transmitter = .idle) : t.transmitter = .idle := by
  cases h with
  | bitsCounted _ _ _ ht => exact ht.2 hs
  | frameStarted => exact absurd ‹_› hstart
  | frameResent => exact absurd ‹_› hstart
  | hardwareReset => rfl
  | _ => simp [enterSetup, enterJoining, hs]

theorem Moves.transmitter_idle {E : Effect → Prop} {s t : State} (h : Moves E s t) (hstart : ¬ E .start)
    (hs : s.transmitter = .idle) : t.transmitter = .idle := by
  induction h with
  | refl => exact hs
  | tail _ hmove ih => exact hmove.transmitter_idle hstart ih

theorem rowEffects_start {c : Instr} (hr : c ≠ .rotationSlot) (hw : c ≠ .replyWindow) : .start ∉ rowEffects c := by
  cases c with
  | rotationSlot => exact absurd rfl hr
  | replyWindow => exact absurd rfl hw
  | _ => exact of_decide_eq_false rfl

/-- A frame being driven from its first bit. -/
def Started (t : State) : Prop := t.transmitter = .sending 0 ∧ ∃ f, t.buffer = some f ∧ f.driven = true

theorem startFrame_started (o : Origin) (f : Frame) (s : State) : Started (startFrame o f s) := ⟨rfl, _, rfl, rfl⟩

theorem sendAnswer_started {s t : State} (h : sendAnswer s = some t) : Started t := by
  unfold sendAnswer at h
  split at h
  · cases h; exact startFrame_started ..
  · exact nomatch h

theorem sendRequest_started {s t : State} (h : sendRequest s = some t) : Started t := by
  unfold sendRequest at h
  split at h
  · split at h
    · cases h; exact startFrame_started ..
    · exact nomatch h
  · exact nomatch h

theorem sendUpdate_started {s t : State} (h : sendUpdate s = some t) : Started t := by
  unfold sendUpdate at h
  split at h
  · split at h
    · cases h; exact startFrame_started ..
    · exact nomatch h
  · exact nomatch h

theorem sendPresence_started {s t : State} (h : sendPresence s = some t) : Started t := by
  unfold sendPresence at h
  split at h
  · cases h; exact startFrame_started ..
  · exact nomatch h

theorem sendResponseAnnounce_started {s t : State} (h : sendResponseAnnounce s = some t) : Started t := by
  unfold sendResponseAnnounce at h
  split at h
  · cases h; exact startFrame_started ..
  · exact nomatch h

theorem buildFrame_started {s t : State} (h : buildFrame s = some t) : Started t := by
  unfold buildFrame at h
  split at h
  · cases h; exact startFrame_started ..
  · rcases Option.or_eq_some_iff.1 h with h | ⟨-, h⟩
    · exact sendResponseAnnounce_started h
    rcases Option.or_eq_some_iff.1 h with h | ⟨-, h⟩
    · exact sendAnswer_started h
    rcases Option.or_eq_some_iff.1 h with h | ⟨-, h⟩
    · exact sendRequest_started h
    rcases Option.or_eq_some_iff.1 h with h | ⟨-, h⟩
    · exact sendUpdate_started h
    · exact sendPresence_started h
  · cases h; exact startFrame_started ..
  · exact nomatch h
  · exact nomatch h

theorem selectFrame_started {s : State} (hs : s.transmitter = .idle) (ht : (selectFrame s).transmitter ≠ .idle) :
    Started (selectFrame s) := by
  unfold selectFrame at ht ⊢
  split
  · exact ⟨rfl, _, rfl, rfl⟩
  · next hb =>
    rw [hb] at ht
    cases h : buildFrame s with
    | none => simp [h, hs] at ht
    | some t => exact buildFrame_started h

theorem rotationSlotEffect_starts {s : State} (hs : s.transmitter = .idle)
    (ht : (rotationSlotEffect s).transmitter ≠ .idle) :
    Started (rotationSlotEffect s) ∧ s.accessTimer ≠ none ∧
      (s.station = .joining ∨ s.station = .active ∨ s.station = .leaving) := by
  cases hn : s.accessTimer with
  | none =>
    rw [rotationSlotEffect_of_stopped hn] at ht
    exact absurd hs ht
  | some n =>
    rw [rotationSlotEffect_of_running hn] at ht ⊢
    by_cases hc : (s.station.usesSlots && decide (s.transmitter = .idle)) = true
    · rw [if_pos hc] at ht ⊢
      exact ⟨selectFrame_started (s := atSlot s) hs ht, nofun, (usesSlots_iff _).1 (Bool.and_eq_true_iff.1 hc).1⟩
    · rw [if_neg hc] at ht
      exact absurd hs ht

theorem replyWindowEffect_starts {s : State} (hs : s.transmitter = .idle) (ht : (replyWindowEffect s).transmitter ≠ .idle) :
    Started (replyWindowEffect s) ∧ s.accessTimer ≠ none ∧ s.station = .active ∧ s.buffer = none ∧ s.replyQueue ≠ [] := by
  by_cases hw : (s.windowOpen && s.accessTimer.isSome) = true
  · obtain ⟨hopen, hsome⟩ := Bool.and_eq_true_iff.1 hw
    obtain ⟨n, hn⟩ := Option.isSome_iff_exists.1 hsome
    rw [replyWindowEffect_of_open hopen hn] at ht ⊢
    by_cases hc : s.station = .active ∧ s.buffer = none ∧ s.transmitter = .idle
    · rw [if_pos hc] at ht ⊢
      obtain ⟨hact, hb, -⟩ := hc
      cases h : sendAnswer (atWindow s) with
      | none => rw [h] at ht; exact absurd hs ht
      | some t =>
        refine ⟨sendAnswer_started h, by rw [hn]; nofun, hact, hb, fun hq => ?_⟩
        exact nomatch (sendAnswer_of_nil (s := atWindow s) hq).symm.trans h
    · rw [if_neg hc] at ht
      exact absurd hs ht
  · rw [replyWindowEffect, if_neg hw] at ht
    exact absurd hs ht

/-- Settles O53: the two rows that can start a transmission, and no other row has that effect. -/
theorem transmissionStarts : Obligations.TransmissionStarts := by
  intro c s t h hs ht
  by_cases hheld : s.resetHeld = true
  · by_cases hr : c = .hardwareReset
    · subst hr
      cases h
      exact absurd rfl ht
    by_cases hl : c = .resetRelease
    · subst hl
      obtain rfl := Host.Outcome.next.inj h
      rw [if_pos hheld] at ht
      exact absurd hs ht
    · obtain rfl := Host.Outcome.next.inj (h.symm.trans (exec_of_held hheld hr hl))
      exact absurd hs ht
  · have hheld : s.resetHeld = false := by simpa using hheld
    by_cases hr : c = .rotationSlot
    · subst hr
      obtain rfl := Host.Outcome.next.inj (h.symm.trans (next_of_effect (f := rotationSlotEffect) hheld rfl))
      obtain ⟨⟨hsend, hbuf⟩, hn, hst⟩ := rotationSlotEffect_starts hs ht
      exact ⟨hsend, hbuf, hn, .inl ⟨rfl, hst⟩⟩
    by_cases hw : c = .replyWindow
    · subst hw
      obtain rfl := Host.Outcome.next.inj (h.symm.trans (next_of_effect (f := replyWindowEffect) hheld rfl))
      obtain ⟨⟨hsend, hbuf⟩, hn, hst⟩ := replyWindowEffect_starts hs ht
      exact ⟨hsend, hbuf, hn, .inr ⟨rfl, hst⟩⟩
    · exact absurd ((exec_moves h fun _ he => he).transmitter_idle (rowEffects_start hr hw) hs) ht

end Sys2Proof.Machine
end

section
/-! PROOF. The rows by what they do to the life of the station: an event of the transition table, or a chain of moves that leaves
the station state alone. From this the station transitions. -/

namespace Sys2Proof.Machine

/-! ### The outcomes of a frame row -/

/-- A frame row of a frame with the own number finds a duplicate station (R126, R158). -/
theorem exec_of_twin {c : Instr} {s : State} (hheld : s.resetHeld = false) (ht : s.findsTwin = true)
    (hc : c = .duplicateStationFrame ∨ frameSender c = some (byteOf s.record.own.val)) :
    exec c s = .next (duplicateFound (goodEnd (some s.record.own) false s)) := by
  rcases hc with rfl | hc
  · exact exec_duplicateStationFrame hheld ht
  · have hown : ∀ (window : Bool) (f : State → State),
        frameFrom s.record.own window f s = duplicateFound (goodEnd (some s.record.own) false s) := fun window f => by
      rw [frameFrom, if_pos rfl, if_pos ht]
    refine exec_of_frame hheld hc (fun x window f hbx => ?_) ?_
    · have hx : x = s.record.own := Fin.ext (by rw [← byteOf_toNat_of_station x, ← hbx, byteOf_toNat_of_station])
      rw [hx]
      exact hown window f
    · rw [malformedEffect, stationOf_byteOf]
      exact hown _ _

/-- The effects that a frame row can have beside the end of a good frame and the words that it applies. -/
def takenEffects : Instr → List Effect
  | .replyFrame _ _ _ _ _ _ _ _ _ => [.flag .requestDone]
  | .ackFrame _ _ _ _ _ => [.flag .requestDone]
  | .announceFrame _ _ _ _ _ => [.flag .requestDone, .flag .dispute]
  | _ => []

/-- The frame's row writes words into some page (R1). -/
def WritesWords (c : Instr) (s : State) : Prop := ∃ p first ws watch, AppliesWords c s p first ws watch

/-- A chain of what a frame row does after the good end of its frame: words written and notified only if the frame's are. -/
def TakenMoves (c : Instr) (s u t : State) : Prop :=
  ∀ E : Effect → Prop, (∀ e ∈ takenEffects c, E e) → (WritesWords c s → E .words ∧ E .notify) → Moves E u t

/-- What the row of a frame comes to. -/
inductive FrameOutcome (c : Instr) (s : State) : State → Prop
  /-- The frame is not heard. -/
  | unheard : FrameOutcome c s s
  /-- The frame carries the own number. -/
  | twin (hc : c = .duplicateStationFrame ∨ frameSender c = some (byteOf s.record.own.val)) (ht : s.findsTwin = true) :
    FrameOutcome c s (duplicateFound (goodEnd (some s.record.own) false s))
  /-- A malformed frame that names no station. -/
  | unnamed (hs : s.hears = true) : FrameOutcome c s (advance .malformed (goodEnd none false s))
  /-- A LEAVE frame of another station. -/
  | left (x : Station) (hc : c = .leaveFrame x) (hx : x ≠ s.record.own) (hs : s.hears = true) :
    FrameOutcome c s (takeLeave x (goodEnd (some x) false s))
  /-- An ANNOUNCE with another ring size in JOINING. -/
  | mismatched (x : Station) (j : Bool) (ring silence : Byte) (owned : PageSet) (hc : c = .announceFrame x j ring silence owned)
      (hs : s.hears = true) (hring : ring.toNat ≠ s.record.ring) (hst : s.station = .joining) :
    FrameOutcome c s
      (setFlag .configError { enterSetup (goodEnd (some x) false s) with configError := .ringMismatch })
  /-- Any other frame of another station: its presence renewed, and then a chain. -/
  | taken (x : Station) (window : Bool) (t : State) (hc : frameSender c = some (byteOf x.val)) (hx : x ≠ s.record.own)
      (hs : s.hears = true) (h : TakenMoves c s (heard x window s) t) : FrameOutcome c s t

theorem effect_of_taken {f : State → State} {s t : State} (hheld : s.resetHeld = false) (h : taken f s = .next t) : t = f s := by
  have h := Host.Outcome.next.inj h
  unfold unlessHeld at h
  rwa [if_neg (by simp [hheld]), eq_comm] at h

theorem station_of_hears {s : State} (hs : s.hears = true) : s.station ≠ .setup := ((hears_iff s).1 hs).1

theorem malformed_taken {E : Effect → Prop} {x : Station} {s : State} (hx : x ≠ s.record.own) (hs : s.hears = true) :
    Moves E (heard x false s) (malformedEffect (byteOf x.val) s) := by
  rw [malformedEffect_of_hears hx hs]
  exact advance_moves (by nofun) _

theorem frameFrom_heard {x : Station} {window : Bool} {f : State → State} {s : State} (hx : x ≠ s.record.own)
    (hs : s.hears = true) : frameFrom x window (fun u => f (renewPresence x u)) s = f (heard x window s) :=
  frameFrom_of_hears hx hs window _

theorem heard_not_setup {x : Station} {window : Bool} {s : State} (hs : s.hears = true) :
    (heard x window s).station ≠ .setup := by
  simpa using station_of_hears hs

/-! ### The frames that write words -/

theorem writesWords_of_update {x : Station} {p : PageNo} {v f : Byte} {ws : List Word} {s : State} (hheld : s.resetHeld = false)
    (hs : s.hears = true) (hx : x ≠ s.record.own) (hw : ws.length ≠ 0) (h : UpdateApplies x p v f ws (heard x false s)) :
    WritesWords (.updateFrame x p v f ws) s := by
  obtain ⟨d, r, hd, hv, ho, hrange, hnew⟩ := h
  rw [heard_disputed] at hd
  rw [heard_variant] at hv
  exact ⟨p, f.toNat, ws, d.watch, hheld, hs, .inl ⟨x, v, f, d, r, rfl, rfl, hx, by omega, hrange, hd, hv, ho, rfl, hnew⟩⟩

theorem status_of_done {status : Byte} (h : remoteStatusOf status = some .done) : status = 0 := by
  unfold remoteStatusOf at h
  split at h
  · assumption
  repeat' (split at h)
  all_goals cases h

theorem writesWords_of_reply {x : Station} {tag : Tag} {issue : Issue} {attempt status page version count : Byte}
    {ws : List Word} {st : RemoteStatus} {s : State} (hheld : s.resetHeld = false) (hs : s.hears = true)
    (hx : x ≠ s.record.own) (hw : replyWf status count ws = true) (hst : remoteStatusOf status = some st)
    (h : ReplyApplies x tag issue attempt st page version ws (heard x false s)) :
    WritesWords (.replyFrame x tag issue attempt status page version count ws) s := by
  obtain ⟨r, d, m, hr, ha, hp, hk, hv, ho, rfl, hlen, hne, l, hl, hnew⟩ := h
  rw [heard_table] at hr
  rw [heard_variant] at hv
  obtain ⟨⟨k, hsent⟩, rfl, rfl, hattempt⟩ := answers_iff.1 ha
  obtain rfl := status_of_done hst
  have hcount : count = 64 := by
    obtain ⟨hc, -⟩ := of_decide_eq_true hw
    exact BitVec.eq_of_toNat_eq (hc.symm.trans hlen)
  subst hcount
  exact ⟨r.page, 0, ws, d.watch, hheld, hs, .inr (.inl ⟨tag, attempt, page, version, r, k, d, m, l, rfl, rfl, hx, hlen, hp, hr,
    hsent, hk, rfl, hattempt, hv, ho, rfl, hne, hl, hnew⟩)⟩

theorem writesWords_of_write {x : Station} {page offset : Byte} {tag : Tag} {issue : Issue} {attempt : Byte} {ws : List Word}
    {s : State} (hheld : s.resetHeld = false) (hs : s.hears = true) (hx : x ≠ s.record.own)
    (hact : s.station = .active) (hroom : s.replyQueue.length < 8) (hmiss : filterFind s.filter x tag issue = none)
    (hdone : writeStatus (heard x true s) page offset ws.length = .done) :
    WritesWords (.writeFrame x page offset tag issue attempt ws) s := by
  obtain ⟨p, d, r, hp, hd, hv, haccept, h1, h16, hrange⟩ := writeStatus_eq_done hdone
  rw [heard_disputed] at hd
  rw [heard_variant] at hv
  exact ⟨p, offset.toNat, ws, d.watch, hheld, hs, .inr (.inr ⟨x, page, offset, tag, issue, attempt, d, r, rfl, rfl, hx, hact, hroom,
    filterFind_eq_none.1 hmiss, (pageOf_eq_some_iff.1 hp).symm, hd, hv, haccept, rfl, h1, h16, hrange⟩)⟩

/-! ### Every frame row -/

theorem takeAnnounce_taken {E : Effect → Prop} (he : E (.flag .requestDone)) (hd : E (.flag .dispute)) {s : State}
    {x : Station} (hs : s.station ≠ .setup) (hx : x ≠ s.record.own) (j : Bool) {ring : Byte} (silence : Byte) (owned : PageSet)
    (hring : ring.toNat ≠ s.record.ring → s.station ≠ .joining) :
    Moves E (renewPresence x s) (takeAnnounce x j ring silence owned s) := by
  by_cases h : ring.toNat = s.record.ring
  · rw [takeAnnounce_of_ring h, announced]
    have hpres : (renewPresence x s).peers[x].state ≠ .absent := by
      rw [renewPresence_peers, if_pos rfl]; nofun
    have hrec := recordOwned_moves (E := E) (s := renewPresence x s) (by rwa [renewPresence_station])
      (by rwa [renewPresence_record]) hpres owned silence
    have hst : (recordOwned x owned silence (renewPresence x s)).station ≠ .setup := by
      rw [recordOwned, setPeer_station, renewPresence_station]; exact hs
    have hchecked := hrec.trans (disputeCheck_moves he hd hst x owned)
    split
    · exact hchecked.trans (joinFlagActions_moves he _ _)
    · exact hchecked
  · rw [takeAnnounce_of_other h (hring h)]
    exact advance_moves (by nofun) _

theorem takeAnnounce_of_mismatch {s : State} {x : Station} {j : Bool} {ring silence : Byte} {owned : PageSet}
    (h : ring.toNat ≠ s.record.ring) (hs : s.station = .joining) :
    takeAnnounce x j ring silence owned s =
      setFlag .configError { enterSetup s with configError := .ringMismatch } :=
  (if_pos h).trans (if_pos hs)

/-- A frame row of another station that is heard. -/
theorem exec_outcome_of_hears {c : Instr} {x : Station} {s t : State} (hheld : s.resetHeld = false)
    (hc : frameSender c = some (byteOf x.val)) (hx : x ≠ s.record.own) (hs : s.hears = true) (h : exec c s = .next t) :
    FrameOutcome c s t := by
  have hst := station_of_hears hs
  have hsender : ∀ {y : Station}, some (byteOf y.val) = some (byteOf x.val) → y = x := fun {y} e => by
    have := congrArg stationOf (Option.some.inj e)
    rw [stationOf_byteOf, stationOf_byteOf] at this
    exact Option.some.inj this
  cases c with
  | updateFrame y p v f ws =>
    obtain rfl := hsender hc
    obtain rfl := effect_of_taken hheld h
    unfold updateFrameEffect
    split
    · exact .taken y false _ rfl hx hs fun E _ _ => malformed_taken hx hs
    · next hw =>
      refine .taken y false _ rfl hx hs fun E _ hW => ?_
      rw [frameFrom_heard hx hs]
      exact takeUpdate_moves (heard_not_setup hs) fun happ =>
        hW (writesWords_of_update hheld hs hx (fun e => hw (.inl e)) happ)
  | fetchFrame y page offset count tag issue attempt =>
    obtain rfl := hsender hc
    obtain rfl := effect_of_taken hheld h
    refine .taken y true _ rfl hx hs fun E _ _ => ?_
    rw [fetchFrameEffect, frameFrom_heard hx hs]
    exact serve_moves fun hact hn => .single (.answerOwed _ hact hn)
  | writeFrame y page offset tag issue attempt ws =>
    obtain rfl := hsender hc
    obtain rfl := effect_of_taken hheld h
    unfold writeFrameEffect
    split
    · exact .taken y false _ rfl hx hs fun E _ _ => malformed_taken hx hs
    · refine .taken y true _ rfl hx hs fun E _ hW => ?_
      rw [frameFrom_heard hx hs]
      refine serve_moves fun hact hn => serveWrite_moves (fun hmiss hdone => hW ?_) hact hn
      exact writesWords_of_write hheld hs hx (by simpa using hact)
        (by rwa [heard_replyQueue] at hn) (by simpa using hmiss) hdone
  | replyFrame y tag issue attempt status page version count ws =>
    obtain rfl := hsender hc
    obtain rfl := effect_of_taken hheld h
    unfold replyFrameEffect
    split
    · next hw =>
      refine .taken y false _ rfl hx hs fun E hE hW => ?_
      rw [frameFrom_heard hx hs]
      exact withStatus_moves fun st hst => takeReply_moves (hE _ (.head _)) (heard_not_setup hs) fun happ =>
        hW (writesWords_of_reply hheld hs hx hw hst happ)
    · exact .taken y false _ rfl hx hs fun E _ _ => malformed_taken hx hs
  | ackFrame y tag issue attempt status =>
    obtain rfl := hsender hc
    obtain rfl := effect_of_taken hheld h
    refine .taken y false _ rfl hx hs fun E hE _ => ?_
    rw [ackFrameEffect, frameFrom_heard hx hs]
    exact withStatus_moves fun st _ => takeAck_moves (hE _ (.head _)) y tag issue attempt st _
  | announceFrame y j ring silence owned =>
    obtain rfl := hsender hc
    obtain rfl := effect_of_taken hheld h
    rw [frameFrom_of_hears hx hs]
    by_cases hm : ring.toNat ≠ s.record.ring ∧ s.station = .joining
    · rw [takeAnnounce_of_mismatch (s := goodEnd (some y) false s) hm.1 hm.2]
      exact .mismatched y j ring silence owned rfl hs hm.1 hm.2
    · exact .taken y false _ rfl hx hs fun E hE _ => takeAnnounce_taken (hE _ (.head _)) (hE _ (.tail _ (.head _)))
        (s := goodEnd (some y) false s) hst hx j silence owned fun h h' => hm ⟨h, h'⟩
  | presenceFrame y =>
    obtain rfl := hsender hc
    obtain rfl := effect_of_taken hheld h
    refine .taken y false _ rfl hx hs fun E _ _ => ?_
    rw [frameFrom_of_hears hx hs]
    exact .refl
  | otherTargetFrame y =>
    obtain rfl := hsender hc
    obtain rfl := effect_of_taken hheld h
    refine .taken y false _ rfl hx hs fun E _ _ => ?_
    rw [frameFrom_of_hears hx hs]
    exact .refl
  | leaveFrame y =>
    obtain rfl := hsender hc
    obtain rfl := effect_of_taken hheld h
    rw [frameFrom_of_hears hx hs]
    exact .left y rfl hx hs
  | malformedFrame b =>
    obtain rfl := Option.some.inj hc
    obtain rfl := effect_of_taken hheld h
    exact .taken x false _ rfl hx hs fun E _ _ => malformed_taken hx hs
  | _ => exact nomatch hc

/-- Every frame row has one of the outcomes of a frame. -/
theorem exec_frameOutcome {c : Instr} {s t : State} (hheld : s.resetHeld = false)
    (hc : c = .duplicateStationFrame ∨ ∃ b, frameSender c = some b) (h : exec c s = .next t) : FrameOutcome c s t := by
  have hnext : ∀ {u : State}, exec c s = .next u → u = t := fun hu => Host.Outcome.next.inj (hu.symm.trans h)
  by_cases hown : c = .duplicateStationFrame ∨ frameSender c = some (byteOf s.record.own.val)
  · cases ht : s.findsTwin with
    | true =>
      obtain rfl := hnext (exec_of_twin hheld ht hown)
      exact .twin hown ht
    | false =>
      obtain ⟨-, -, -, -, -, hunheard⟩ := goodFramesRenewPresence s hheld
      obtain rfl := hnext (hunheard ht c hown)
      exact .unheard
  · obtain ⟨b, hb⟩ := hc.resolve_left fun e => hown (.inl e)
    have hne : b ≠ byteOf s.record.own.val := fun e => hown (.inr (e ▸ hb))
    cases hs : s.hears with
    | false =>
      obtain ⟨-, -, -, -, hunheard, -⟩ := goodFramesRenewPresence s hheld
      obtain rfl := hnext (hunheard hs c b hb hne)
      exact .unheard
    | true =>
      by_cases hbig : 31 < b.toNat
      · have hunnamed := malformedEffect_of_noStation (s := s) hbig
        rw [if_pos hs] at hunnamed
        have hframe : ∀ (x : Station) (window : Bool) (f : State → State), b = byteOf x.val →
            frameFrom x window f s = advance .malformed (goodEnd none false s) := fun x window f hbx => by
          rw [hbx, byteOf_toNat_of_station] at hbig
          omega
        obtain rfl := hnext (exec_of_frame hheld hb hframe hunnamed)
        exact .unnamed hs
      · have hval : b = byteOf (⟨b.toNat, by omega⟩ : Station).val := (byteOf_toNat b).symm
        rw [hval] at hb
        refine exec_outcome_of_hears hheld hb (fun e => hne ?_) hs h
        rw [hval, e]

/-! ### The events of a station's life (R150) -/

/-- A duplicate-station frame, or a frame of any other row with the own number, where it is found. -/
def TwinFound (c : Instr) (s : State) : Prop :=
  s.findsTwin = true ∧ (c = .duplicateStationFrame ∨ frameSender c = some (byteOf s.record.own.val))

/-- The events of Table 9.2 and those that leave the station where it is but for a flag: what command `c`, taken in the state
`s`, makes of the state `u` that the rest of its row has come to. -/
inductive LifeEvent (c : Instr) (s u : State) : State → Prop
  /-- A JOIN refused (R153). -/
  | refused (e : ConfigError) (hc : c = .join) (hs : s.station = .setup) (he : e ≠ .none) :
    LifeEvent c s u (setFlag .configError { u with configError := e })
  /-- A JOIN that passes (R154). -/
  | joining (hc : c = .join) (hs : s.station = .setup) : LifeEvent c s u (enterJoining .joining u)
  /-- A REJOIN (R158). -/
  | rejoining (hc : c = .rejoin) (hs : s.station = .muted) : LifeEvent c s u (enterJoining .rejoined u)
  /-- The completion of the JOIN-flagged ANNOUNCE (R156). -/
  | activated (f : TxFrame) (hc : c = .completion) (hs : s.station = .joining) (hf : s.buffer = some f)
      (ho : f.origin = .joinAnnounce) : LifeEvent c s u (enterActive u)
  /-- LEAVE in ACTIVE (R159). -/
  | leaving (hc : c = .leave) (hs : s.station = .active) : LifeEvent c s u (enterLeaving u)
  /-- LEAVE in MUTED, the LEAVE frame's completion or the eighth abort in LEAVING (R161). -/
  | left (h : (s.station = .muted ∧ c = .leave) ∨
      (s.station = .leaving ∧ c = .completion ∧ ∃ f, s.buffer = some f ∧ f.origin = .leave) ∨
      (s.station = .leaving ∧ c = .abort ∧ 7 ≤ s.abortCount)) : LifeEvent c s u (setFlag .left (enterSetup u))
  /-- Another ring size announced in JOINING (R170). -/
  | mismatched (x : Station) (j : Bool) (ring silence : Byte) (owned : PageSet) (hc : c = .announceFrame x j ring silence owned)
      (hring : ring.toNat ≠ s.record.ring) (hs : s.station = .joining) :
    LifeEvent c s u (setFlag .configError { enterSetup u with configError := .ringMismatch })
  /-- The eighth abort in JOINING or ACTIVE (R144). -/
  | aborted (hc : c = .abort) (h : 7 ≤ s.abortCount) (hs : s.station = .joining ∨ s.station = .active) :
    LifeEvent c s u (enterMuted .aborts u)
  /-- A duplicate station in a state that it mutes (R126). -/
  | muted (h : TwinFound c s) (hs : s.station = .joining ∨ s.station = .active ∨ s.station = .leaving) :
    LifeEvent c s u (enterMuted .duplicateStation u)
  /-- A duplicate station in MUTED (R126). -/
  | renewed (h : TwinFound c s) (hs : s.station = .muted) :
    LifeEvent c s u (setFlag .muted { u with mutedReason := .duplicateStation })

/-- The effects of a row in a station whose life goes on as it does. -/
def ordinaryEffects : Instr → List Effect
  | .setMask _ _ => [.mask]
  | .read _ _ _ => [.host]
  | .write _ _ _ _ => [.host, .words]
  | .collect _ => [.host]
  | .popNotify => [.host]
  | .clearEvents _ => [.clear]
  | .resetRelease => [.queue]
  | .replyTimerExpiry _ => [.flag .requestDone]
  | .silenceCounterExpiry _ => [.peers, .flag .peerChange, .flag .requestDone]
  | .replyWindow => [.start]
  | .rotationSlot => [.start]
  | .leaveFrame _ => [.peers, .flag .peerChange, .flag .requestDone]
  | c => if (frameSender c).isSome then .peers :: .flag .peerChange :: takenEffects c else []

/-- A chain of moves with no effect at all. -/
abbrev Quiet : State → State → Prop := Moves fun _ => False

/-- A chain of moves with the ordinary effects of a row, and words written and notified only if the row is a frame's that
applies words. -/
def RowMoves (c : Instr) (s t : State) : Prop :=
  ∀ E : Effect → Prop, (∀ e ∈ ordinaryEffects c, E e) → (WritesWords c s → E .words ∧ E .notify) → Moves E s t

/-- What a row comes to: an event of the station's life, before which nothing happens and after which it is at most answered, or a
chain without any. -/
def RowOutcome (c : Instr) (s t : State) : Prop :=
  (∃ u v, Quiet s u ∧ LifeEvent c s u v ∧ t = { v with response := t.response }) ∨ RowMoves c s t

theorem RowOutcome.event {c : Instr} {s u v t : State} (hs : Quiet s u) (h : LifeEvent c s u v)
    (ht : t = { v with response := t.response }) :
    RowOutcome c s t := .inl ⟨u, v, hs, h, ht⟩

theorem RowOutcome.happened {c : Instr} {s u t : State} (hs : Quiet s u) (h : LifeEvent c s u t) : RowOutcome c s t :=
  .event hs h rfl

theorem joinError_ne_none {s : State} {e : ConfigError} (h : joinError s = some e) : e ≠ .none := by
  unfold joinError at h
  split at h
  · cases h; nofun
  · obtain ⟨p, -, hp⟩ := List.exists_of_findSome?_eq_some h
    rintro rfl
    simpa [PageRefused] using (pageError_eq_some_iff s p .none).1 hp

theorem joinEffect_outcome (s : State) : RowOutcome .join s (joinEffect s) := by
  unfold joinEffect
  split
  · next hs =>
    split
    · next e he => exact .event .refl (.refused e rfl hs (joinError_ne_none he)) rfl
    · exact .event (Moves.outside rfl) (.joining rfl hs) rfl
  · exact .inr fun E _ _ => respond_moves ..

theorem leaveEffect_outcome (s : State) : RowOutcome .leave s (leaveEffect s) := by
  unfold leaveEffect
  split
  · next hs => exact .event .refl (.leaving rfl hs) rfl
  · next hs => exact .event .refl (.left (.inl ⟨hs, rfl⟩)) rfl
  · exact .inr fun E _ _ => respond_moves ..

theorem rejoinEffect_outcome (s : State) : RowOutcome .rejoin s (rejoinEffect s) := by
  unfold rejoinEffect
  split
  · next hs => exact .event .refl (.rejoining rfl hs) rfl
  · exact .inr fun E _ _ => respond_moves ..

theorem abortEffect_outcome (s : State) : RowOutcome .abort s (abortEffect s) := by
  unfold abortEffect
  split
  · next n ht =>
    have habort : ∀ {E : Effect → Prop}, ∀ n, n < Config.abortLimit →
        Moves E s { foundBroken 0 s with transmitter := .idle, buffer := s.buffer.bind afterAbort, abortCount := n } :=
      fun {E} n hn => (foundBroken_moves 0 s).tail (.aborted n (by simp [ht]) hn)
    simp only
    split
    · next hn => exact .inr fun E _ _ => habort _ hn
    · next hn =>
      have h7 : 7 ≤ s.abortCount := by simp only [Config.abortLimit] at hn; omega
      have hzero : Quiet s _ := habort 0 (by decide)
      unfold eighthAbort
      split
      · next hs => exact .happened hzero (.aborted rfl h7 (.inl hs))
      · next hs => exact .happened hzero (.aborted rfl h7 (.inr hs))
      · next hs => exact .happened hzero (.left (.inr (.inr ⟨hs, rfl, h7⟩)))
      · exact .inr fun E _ _ => habort 0 (by decide)
  · exact .inr fun E _ _ => .refl

theorem completionEffect_outcome (s : State) : RowOutcome .completion s (completionEffect s) := by
  by_cases hsending : ∃ n f, s.transmitter = .sending n ∧ s.buffer = some f
  · obtain ⟨n, f, ht, hf⟩ := hsending
    have hne : s.transmitter ≠ .idle := by rw [ht]; nofun
    have hs : SetupQuiet s → s.station ≠ .setup := fun hq hs => hne (hq hs).1
    have hplain := frameSent_moves_of_plain (E := fun _ => False) hs hne hf
    rw [completionEffect_of_sending ht hf]
    by_cases hj : f.origin = .joinAnnounce ∧ s.station = .joining
    · rw [hj.1, completionTold, if_pos (show (frameSent s).station = .joining from hj.2)]
      exact .happened (hplain fun t => by rw [hj.1]; nofun) (.activated f rfl hj.2 hf hj.1)
    by_cases hl : f.origin = .leave ∧ s.station = .leaving
    · rw [hl.1, completionTold, if_pos (show (frameSent s).station = .leaving from hl.2)]
      exact .happened (hplain fun t => by rw [hl.1]; nofun) (.left (.inr (.inl ⟨hl.2, rfl, f, hf, hl.1⟩)))
    exact .inr fun E _ _ => completionTold_moves hs hne hf (fun ho hst => absurd ⟨ho, hst⟩ hj) fun ho hst => absurd ⟨ho, hst⟩ hl
  · have hrefused : completionEffect s = s := by
      unfold completionEffect
      split
      · next n f ht hf => exact absurd ⟨n, f, ht, hf⟩ hsending
      · rfl
    rw [hrefused]
    exact .inr fun E _ _ => .refl

theorem not_writesWords_leaveFrame (y : Station) (s : State) : ¬ WritesWords (.leaveFrame y) s := by
  rintro ⟨p, first, ws, watch, -, -, ⟨_, _, _, _, _, hc, -⟩ | ⟨_, _, _, _, _, _, _, _, _, hc, -⟩ | ⟨_, _, _, _, _, _, _, _, hc, -⟩⟩
  all_goals exact nomatch hc

theorem ordinaryEffects_of_sender {c : Instr} {b : Byte} (hc : frameSender c = some b) (hl : ∀ x, c ≠ .leaveFrame x) :
    ordinaryEffects c = .peers :: .flag .peerChange :: takenEffects c := by
  cases c with
  | leaveFrame x => exact absurd rfl (hl x)
  | updateFrame | fetchFrame | writeFrame | replyFrame | ackFrame | announceFrame | presenceFrame | malformedFrame
  | otherTargetFrame => rfl
  | _ => exact nomatch hc

/-- A duplicate station found is an event of the station's life (R126). -/
theorem twin_event {c : Instr} {s : State} (ht : s.findsTwin = true)
    (hc : c = .duplicateStationFrame ∨ frameSender c = some (byteOf s.record.own.val)) :
    ∃ u, Quiet s u ∧ LifeEvent c s u (duplicateFound (goodEnd (some s.record.own) false s)) := by
  have hst : s.station ≠ .setup := ((findsTwin_iff s).1 ht).1
  have hend : Quiet s (goodEnd (some s.record.own) false s) := goodEnd_moves hst _ _
  cases hs : s.station with
  | setup => exact absurd hs hst
  | muted =>
    rw [duplicateFound_of_muted (s := goodEnd _ _ s) hs]
    exact ⟨_, hend, .renewed ⟨ht, hc⟩ hs⟩
  | joining =>
    rw [duplicateFound_of_muting (s := goodEnd _ _ s) (.inl hs)]
    exact ⟨_, hend, .muted ⟨ht, hc⟩ (.inl hs)⟩
  | active =>
    rw [duplicateFound_of_muting (s := goodEnd _ _ s) (.inr (.inl hs))]
    exact ⟨_, hend, .muted ⟨ht, hc⟩ (.inr (.inl hs))⟩
  | leaving =>
    rw [duplicateFound_of_muting (s := goodEnd _ _ s) (.inr (.inr hs))]
    exact ⟨_, hend, .muted ⟨ht, hc⟩ (.inr (.inr hs))⟩

theorem FrameOutcome.row {c : Instr} {s t : State} (h : FrameOutcome c s t) : RowOutcome c s t := by
  cases h with
  | unheard => exact .inr fun E _ _ => .refl
  | unnamed hs => exact .inr fun E _ _ => (goodEnd_moves (station_of_hears hs) _ _).trans (advance_moves (by nofun) _)
  | twin hc ht =>
    obtain ⟨u, hu, hevent⟩ := twin_event ht hc
    exact .happened hu hevent
  | left x hc hx hs =>
    subst hc
    have hst := station_of_hears hs
    refine .inr fun E hE _ => (goodEnd_moves hst (some x) false).trans ?_
    exact takeLeave_moves (hE _ (.head _)) (hE _ (.tail _ (.head _))) (hE _ (.tail _ (.tail _ (.head _))))
      (s := goodEnd (some x) false s) hst hx
  | mismatched x j ring silence owned hc hs hring hst =>
    exact .happened (goodEnd_moves (by rw [hst]; nofun) _ _) (.mismatched x j ring silence owned hc hring hst)
  | taken x window t hc hx hs h =>
    have hst := station_of_hears hs
    by_cases hl : ∃ y, c = .leaveFrame y
    · obtain ⟨y, rfl⟩ := hl
      refine .inr fun E hE _ => ((goodEnd_moves hst (some x) window).trans ?_).trans (h E (fun e he => nomatch he) fun hW => absurd hW ?_)
      · exact renewPresence_moves (hE _ (.head _)) (hE _ (.tail _ (.head _))) (s := goodEnd (some x) window s) hst hx
      · exact not_writesWords_leaveFrame y s
    · have heffects := ordinaryEffects_of_sender hc fun y e => hl ⟨y, e⟩
      refine .inr fun E hE hW => ?_
      rw [heffects] at hE
      refine ((goodEnd_moves hst (some x) window).trans ?_).trans (h E (fun e he => hE e (.tail _ (.tail _ he))) hW)
      exact renewPresence_moves (hE _ (.head _)) (hE _ (.tail _ (.head _))) (s := goodEnd (some x) window s) hst hx

/-- Every row but the resets. -/
theorem exec_outcome {c : Instr} {s t : State} (h : exec c s = .next t) (hr : c ≠ .hardwareReset) (hs : c ≠ .softReset) :
    RowOutcome c s t := by
  by_cases hheld : s.resetHeld = true ∧ c ≠ .resetRelease
  · obtain rfl := Host.Outcome.next.inj ((exec_of_held hheld.1 hr hheld.2).symm.trans h)
    exact .inr fun E _ _ => .refl
  by_cases hrelease : c = .resetRelease
  · subst hrelease
    exact .inr fun E hE _ => exec_moves h hE
  replace hheld : s.resetHeld = false := by simpa [hrelease] using hheld
  cases c with
  | hardwareReset => exact absurd rfl hr
  | softReset => exact absurd rfl hs
  | join => exact effect_of_taken hheld h ▸ joinEffect_outcome s
  | leave => exact effect_of_taken hheld h ▸ leaveEffect_outcome s
  | rejoin => exact effect_of_taken hheld h ▸ rejoinEffect_outcome s
  | abort => exact effect_of_taken hheld h ▸ abortEffect_outcome s
  | completion => exact effect_of_taken hheld h ▸ completionEffect_outcome s
  | updateFrame | fetchFrame | writeFrame | replyFrame | ackFrame | announceFrame | presenceFrame | leaveFrame
  | malformedFrame | otherTargetFrame => exact (exec_frameOutcome hheld (.inr ⟨_, rfl⟩) h).row
  | duplicateStationFrame => exact (exec_frameOutcome hheld (.inl rfl) h).row
  | _ => exact .inr fun E hE _ => exec_moves h hE

/-! ### The station state (Table 9.2) -/

theorem Move.station_eq {E : Effect → Prop} {s t : State} (h : Move E s t) (hl : ¬ E .lifecycle) (hr : ¬ E .reset) :
    t.station = s.station := by
  cases h with
  | toMuted _ _ he | toLeaving _ _ he | toSetup _ he | softReset he | toJoining _ _ he | toActive _ he => exact absurd he hl
  | hardwareReset he => exact absurd he hr
  | _ => rfl

theorem Quiet.station_eq {s t : State} (h : Quiet s t) : t.station = s.station :=
  Moves.field_eq (F := State.station) (fun _ _ hm => hm.station_eq id id) h

/-- The effects that a row can have without an event of the station's life. -/
theorem ordinaryEffects_among (c : Instr) : ∀ e ∈ ordinaryEffects c,
    e ∈ [.mask, .host, .words, .clear, .queue, .start, .peers, .flag .peerChange, .flag .requestDone, .flag .dispute] := by
  cases c <;> exact of_decide_eq_true rfl

theorem not_mem_ordinaryEffects {c : Instr} {e : Effect}
    (he : e ∉ [.mask, .host, .words, .clear, .queue, .start, .peers, .flag .peerChange, .flag .requestDone, .flag .dispute]) :
    e ∉ ordinaryEffects c := fun h => he (ordinaryEffects_among c e h)

theorem ordinaryEffects_life (c : Instr) : .lifecycle ∉ ordinaryEffects c ∧ .reset ∉ ordinaryEffects c :=
  ⟨not_mem_ordinaryEffects (by decide), not_mem_ordinaryEffects (by decide)⟩

theorem RowMoves.station_eq {c : Instr} {s t : State} (h : RowMoves c s t) :
    t.station = s.station :=
  Moves.field_eq (F := State.station)
    (fun _ _ hm => hm.station_eq (E := fun e => e ∈ ordinaryEffects c ∨ e = .words ∨ e = .notify)
      (by simp [ordinaryEffects_life c]) (by simp [ordinaryEffects_life c])) (h _ (fun _ he => .inl he) fun _ => by simp)

theorem enterJoining_station (cause : RecoveryCause) (s : State) : (enterJoining cause s).station = .joining := rfl

theorem enterMuted_station (why : MutedReason) (s : State) : (enterMuted why s).station = .muted := rfl

theorem enterLeaving_station (s : State) : (enterLeaving s).station = .leaving := rfl

theorem enterActive_station (s : State) : (enterActive s).station = .active := by
  rw [enterActive_eq, claimRefreshes_only, opened_eq]

/-- The events of Table 9.2, with the state each leads to. -/
theorem LifeEvent.transition {c : Instr} {s u v : State} (h : LifeEvent c s u v) (hu : u.station = s.station) :
    (s.station = .setup ∧ c = .join ∧ v.station = .joining) ∨
    (s.station = .joining ∧ c = .completion ∧ v.station = .active ∧ ∃ f, s.buffer = some f ∧ f.origin = .joinAnnounce) ∨
    (s.station = .joining ∧ v.station = .setup ∧ ∃ x j ring silence owned,
      c = .announceFrame x j ring silence owned ∧ ring.toNat ≠ s.record.ring) ∨
    ((s.station = .joining ∨ s.station = .active) ∧ c = .abort ∧ 7 ≤ s.abortCount ∧ v.station = .muted) ∨
    ((s.station = .joining ∨ s.station = .active ∨ s.station = .leaving) ∧ v.station = .muted ∧
      (c = .duplicateStationFrame ∨ frameSender c = some (byteOf s.record.own.val))) ∨
    (s.station = .active ∧ c = .leave ∧ v.station = .leaving) ∨
    (s.station = .muted ∧ c = .leave ∧ v.station = .setup) ∨
    (s.station = .muted ∧ c = .rejoin ∧ v.station = .joining) ∨
    (s.station = .leaving ∧ c = .completion ∧ v.station = .setup ∧ ∃ f, s.buffer = some f ∧ f.origin = .leave) ∨
    (s.station = .leaving ∧ c = .abort ∧ 7 ≤ s.abortCount ∧ v.station = .setup) ∨ v.station = s.station := by
  cases h with
  | refused e hc hs he => simp [hu]
  | renewed htwin hs => simp [hu]
  | joining hc hs => simp [hs, hc, enterJoining_station]
  | rejoining hc hs => simp [hs, hc, enterJoining_station]
  | activated f hc hs hf ho => simp [hs, hc, hf, ho, enterActive_station]
  | leaving hc hs => simp [hs, hc, enterLeaving_station]
  | left h =>
    have hv : (enterSetup u).station = .setup := rfl
    rcases h with ⟨hs, hc⟩ | ⟨hs, hc, f, hf, ho⟩ | ⟨hs, hc, hn⟩
    · simp [hs, hc, hv]
    · simp [hs, hc, hv, hf, ho]
    · simp [hs, hc, hv, hn]
  | mismatched x j ring silence owned hc hring hs =>
    exact .inr (.inr (.inl ⟨hs, rfl, x, j, ring, silence, owned, hc, hring⟩))
  | aborted hc hn hs => simp [hs, hc, hn, enterMuted_station]
  | muted htwin hs => simp [hs, htwin.2, enterMuted_station]

/-- Settles O52: the station state changes by an event of Table 9.2 or a reset; a chain without one leaves it. -/
theorem stationTransitions : Obligations.StationTransitions := by
  intro c s t h hne
  by_cases hreset : c = .softReset ∨ c = .hardwareReset
  · have hsetup : t.station = .setup := by
      rcases hreset with rfl | rfl
      · have hheld : s.resetHeld = false := by
          by_contra hheld
          exact hne (congrArg State.station (Host.Outcome.next.inj ((taken_of_held _ (by simpa using hheld)).symm.trans h)).symm)
        obtain rfl := effect_of_taken hheld h
        rfl
      · obtain rfl := Host.Outcome.next.inj h
        rfl
    simp [hreset, hsetup]
  rcases exec_outcome h (fun e => hreset (.inr e)) (fun e => hreset (.inl e)) with ⟨u, v, hu, hevent, hv⟩ | hmoves
  · have htransition := hevent.transition hu.station_eq
    rw [← show t.station = v.station from (congrArg State.station hv).trans rfl] at htransition
    simpa only [hne, hreset, or_false, false_and] using htransition
  · exact absurd hmoves.station_eq hne

end Sys2Proof.Machine
end

section
/-! PROOF. The words that a command writes into page memory, and the notification that goes with them. -/

namespace Sys2Proof.Machine

/-! ### Words from the line (R55, R56, R59, R103) -/

/-- The words `ws` have been written into page `p` from offset `first`, and `p` has been appended to the notify queue if it is
watched. -/
structure WordsApplied (p : PageNo) (first : Nat) (ws : List Word) (watch : Bool) (g t : State) : Prop where
  range : first + ws.length ≤ 64
  memory : t.memory = (putWords p first ws g).memory
  notify : t.notify = (notifyIf watch p g).notify
  flags : t.flags = (notifyIf watch p g).flags

/-- What an append to the notify queue leaves in the queue and the flags depends on these alone. -/
theorem notifyIf_congr {s u : State} (hn : u.notify = s.notify) (hf : u.flags = s.flags) (watch : Bool) (p : PageNo) :
    (notifyIf watch p u).notify = (notifyIf watch p s).notify ∧ (notifyIf watch p u).flags = (notifyIf watch p s).flags := by
  have happend : (notifyAppend p u).notify = (notifyAppend p s).notify ∧
      (notifyAppend p u).flags = (notifyAppend p s).flags := by
    unfold notifyAppend
    rw [hn]
    split
    · exact ⟨hn, hf⟩
    · split
      · exact ⟨hn, congrArg (· ||| Event.notifyLost.byte) hf⟩
      · exact ⟨rfl, hf⟩
  cases watch
  · exact ⟨hn, hf⟩
  · exact happend

theorem applyToMirror_wordsApplied {p : PageNo} {first : Nat} {ws : List Word} (h : first + ws.length ≤ 64) (d : MirrorDesc)
    (v : Byte) (st : MirrorState) (mark : RefreshMark) (s : State) :
    WordsApplied p first ws d.watch s (applyToMirror p d first ws v st mark s) := by
  obtain ⟨hn, hf⟩ := notifyIf_congr (s := s)
    (u := setVariant p (.mirror d { state := st, last := some v, age := ageLoad d.ageLimit, mark := mark })
      (putWords p first ws s)) rfl rfl d.watch p
  exact ⟨h, (congrArg State.memory (applyToMirror_only p d first ws v st mark s)).trans rfl, hn, hf⟩

theorem classifyUpdate_of_newer {r : MirrorRun} {v : Byte} (isFull : Bool)
    (h : r.state = .empty ∨ ∃ l, r.last = some l ∧ 1 ≤ (v - l).toNat ∧ (v - l).toNat ≤ 127) :
    ∃ st mark, classifyUpdate r v isFull = some (st, mark) := by
  by_cases he : r.state = .empty
  · rw [classifyUpdate_of_empty v isFull he]
    split <;> exact ⟨_, _, rfl⟩
  · obtain ⟨l, hl, h1, h127⟩ := h.resolve_left he
    rw [classifyUpdate_of_last v isFull he hl, if_neg (by omega)]
    repeat' split
    all_goals exact ⟨_, _, rfl⟩

theorem takeUpdate_wordsApplied {x : Station} {p : PageNo} {v f : Byte} {ws : List Word} {s : State} {d : MirrorDesc}
    {r : MirrorRun} (hrange : f.toNat + ws.length ≤ 64) (hd : s.disputed p = false) (hv : s.variant p = .mirror d r)
    (ho : d.owner = x) (hnew : r.state = .empty ∨ ∃ l, r.last = some l ∧ 1 ≤ (v - l).toNat ∧ (v - l).toNat ≤ 127) :
    WordsApplied p f.toNat ws d.watch s (takeUpdate x p v f ws s) := by
  obtain ⟨st, mark, hc⟩ := classifyUpdate_of_newer (decide (f = 0 ∧ ws.length = 64)) hnew
  rw [takeUpdate_of_mapped hrange hd, hv]
  simp only [ho, if_true]
  rw [updateMirror_of_some hc]
  exact applyToMirror_wordsApplied hrange d v st mark s

theorem takeReply_wordsApplied {x : Station} {t : Tag} {i : Issue} {a page v : Byte} {ws : List Word} {s : State} {r : Request}
    {d : MirrorDesc} {m : MirrorRun} {l : Byte} (hr : s.table[t] = some r) (ha : r.answers x i a = true)
    (hp : page.toNat = r.page.val) (hk : r.kind = .refresh) (hv : s.variant r.page = .mirror d m) (ho : d.owner = x)
    (hw : ws.length = 64) (he : m.state ≠ .empty) (hl : m.last = some l) (hnew : (v - l).toNat ≤ 127) :
    WordsApplied r.page 0 ws d.watch s (takeReply x t i a .done page v ws s) := by
  rw [takeReply_of_match hr ha hp.symm, hk]
  simp only [hv, ho, if_true]
  rw [refreshAnswered_of_done he hl v hw, if_pos (by omega)]
  obtain ⟨hrange, hmem, hn, hf⟩ := applyToMirror_wordsApplied (p := r.page) (first := 0) (ws := ws) (by omega) d v .fresh .none s
  exact ⟨hrange, hmem, hn, hf⟩

theorem serveWrite_wordsApplied {x : Station} {page offset : Byte} {tag : Tag} {issue : Issue} {attempt : Byte} {ws : List Word}
    {s : State} {p : PageNo} {d : OwnDesc} {r : OwnRun} (hmiss : filterFind s.filter x tag issue = none)
    (hp : page.toNat = p.val) (hd : s.disputed p = false) (hv : s.variant p = .own d r) (haccept : d.remoteWrites = .accept)
    (h1 : 1 ≤ ws.length) (h16 : ws.length ≤ 16) (hrange : offset.toNat + ws.length ≤ 64) :
    WordsApplied p offset.toNat ws d.watch s (serveWrite x page offset tag issue attempt ws s) := by
  have hdone : writeStatus s page offset ws.length = .done :=
    writeStatus_of_row (.inr ⟨p, hp.symm, .inr (.inr ⟨hd, d, r, hv, .inr ⟨h1, h16, hrange, .inr ⟨haccept, rfl⟩⟩⟩)⟩)
  have hwritten : written .done page offset ws s = notifyIf d.watch p (storeWrite p offset.toNat ws s) := by
    rw [written, if_pos rfl, applyRemoteWrite, pageOf_eq_some hp.symm]
    simp only [hv]
    rfl
  have hstore := storeWrite_only p offset.toNat ws s
  obtain ⟨hn, hf⟩ := notifyIf_congr (s := s) (u := storeWrite p offset.toNat ws s) (by rw [hstore]) (by rw [hstore]) d.watch p
  rw [serveWrite_of_miss hmiss hdone, hwritten]
  refine ⟨hrange, ?_, hn, hf⟩
  have hmem : (notifyIf d.watch p (storeWrite p offset.toNat ws s)).memory = (storeWrite p offset.toNat ws s).memory := by
    rw [notifyIf_only]
  refine hmem.trans ?_
  rw [storeWrite_memory, hv]
  rfl

/-- A frame row that applies words. -/
theorem exec_wordsApplied {c : Instr} {p : PageNo} {first : Nat} {ws : List Word} {watch : Bool} {s t : State}
    (h : AppliesWords c s p first ws watch) (hexec : exec c s = .next t) :
    ∃ x window, WordsApplied p first ws watch (heard x window s) t := by
  obtain ⟨hheld, hs, happ⟩ := h
  have hnext : ∀ {u : State}, exec c s = .next u → u = t := fun hu => Host.Outcome.next.inj (hu.symm.trans hexec)
  rcases happ with ⟨x, v, f, d, r, rfl, rfl, hx, h1, hrange, hd, hv, ho, rfl, hnew⟩ |
    ⟨tag, attempt, page, version, r, k, d, m, l, rfl, rfl, hx, hw, hp, hr, hsent, hk, rfl, hat, hv, ho, rfl, he, hl, hnew⟩ |
    ⟨x, page, offset, tag, issue, attempt, d, r, rfl, rfl, hx, hact, hroom, hmiss, hp, hd, hv, haccept, rfl, h1, h16, hrange⟩
  · have hwf : updateWf ws = true := decide_eq_true ⟨h1, by simp only [Config.longestBody]; omega⟩
    obtain rfl := hnext (exec_updateFrame_of_hears hheld hs hx hwf)
    exact ⟨x, false, takeUpdate_wordsApplied hrange (by simpa using hd) (by simpa using hv) ho hnew⟩
  · have hwf : replyWf 0 64 ws = true := decide_eq_true ⟨hw, by simp only [Config.longestBody]; omega⟩
    obtain rfl := hnext (exec_replyFrame_of_hears hheld hs hx hwf)
    refine ⟨r.owner, false, ?_⟩
    rw [withStatus_of_code (show remoteCode .done = 0 from rfl)]
    exact takeReply_wordsApplied (by simpa using hr) (answers_iff.2 ⟨⟨k, hsent⟩, rfl, rfl, hat⟩) hp hk
      (by simpa using hv) ho hw he hl hnew
  · have hwf : writeFrameWf ws = true := decide_eq_true (by simp only [Config.longestBody]; omega)
    obtain rfl := hnext (exec_writeFrame_of_hears hheld hs hx hwf)
    rw [serve_of_room (by simpa using hact) (by simpa using hroom)]
    exact ⟨x, true, serveWrite_wordsApplied (by rw [heard_filter]; exact filterFind_eq_none.2 hmiss) hp (by simpa using hd)
      (by simpa using hv) haccept h1 h16 hrange⟩

/-! ### Page memory (R1) -/

theorem Move.memory_eq {E : Effect → Prop} {s t : State} (h : Move E s t) (hw : ¬ E .words) (hr : ¬ E .reset) :
    t.memory = s.memory := by
  cases h with
  | wordsPut _ _ _ _ he => exact absurd he hw
  | hardwareReset he => exact absurd he hr
  | _ => simp [enterSetup, enterJoining]

theorem endAll_memory (why : LocalReason) (s : State) :
    (endRequests (fun _ => true) why (dropPending s)).memory = s.memory := by
  rw [endRequests_eq]
  simp [dropPending]

theorem enterMuted_memory (why : MutedReason) (s : State) : (enterMuted why s).memory = s.memory := by
  have hend := endAll_memory .muted s
  unfold enterMuted
  generalize endRequests (fun _ => true) .muted (dropPending s) = u at hend
  simp only [discardFrame_eq, clearMarks, clearPublishQueue, idleChannels]
  exact hend

theorem enterLeaving_memory (s : State) : (enterLeaving s).memory = s.memory := by
  have hend := endAll_memory .cancelled s
  unfold enterLeaving
  generalize endRequests (fun _ => true) .cancelled (dropPending s) = u at hend
  simp only [clearMarks, clearPublishQueue, idleChannels]
  exact hend

theorem LifeEvent.memory_eq {c : Instr} {s u v : State} (h : LifeEvent c s u v) : v.memory = u.memory := by
  cases h with
  | activated => rw [enterActive_eq, claimRefreshes_only, opened_eq]
  | aborted | muted => exact enterMuted_memory _ u
  | leaving => exact enterLeaving_memory u
  | refused | renewed => rfl
  | joining | rejoining => simp [enterJoining]
  | left | mismatched => simp [enterSetup]

theorem Moves.memory_eq {E : Effect → Prop} {s t : State} (h : Moves E s t) (hw : ¬ E .words) (hr : ¬ E .reset) :
    t.memory = s.memory :=
  Moves.field_eq (F := State.memory) (fun _ _ hm => hm.memory_eq hw hr) h

/-- A row that writes no words leaves page memory. -/
theorem memory_eq_of_outcome {c : Instr} {s t : State} (h : RowOutcome c s t) (hw : .words ∉ ordinaryEffects c)
    (hW : ¬ WritesWords c s) : t.memory = s.memory := by
  rcases h with ⟨u, v, hu, hevent, hv⟩ | hmoves
  · exact (congrArg State.memory hv).trans (hevent.memory_eq.trans (Moves.memory_eq hu id id))
  · exact Moves.memory_eq (hmoves (· ∈ ordinaryEffects c) (fun _ he => he) fun h => absurd h hW) hw (ordinaryEffects_life c).2

theorem word_of_memory {s t : State} (h : t.memory = s.memory) (p : PageNo) (o : Nat) : t.word p o = s.word p o := by
  unfold State.word
  rw [h]

/-- A word that a write within one page changes is one of those written. -/
theorem changed_of_putWords {s t : State} (hs : MemorySound s) {q : PageNo} {first : Nat} {ws : List Word}
    (hrange : first + ws.length ≤ 64) (hmem : t.memory = (putWords q first ws s).memory) {p : PageNo} {o : Nat} (ho : o < 64)
    (hne : t.word p o ≠ s.word p o) : p = q ∧ first ≤ o ∧ ws[o - first]? = some (t.word p o) := by
  rw [word_of_memory hmem, putWords_word hs hrange p ho] at hne ⊢
  by_cases h : p = q ∧ first ≤ o
  · rw [if_pos h] at hne ⊢
    cases hget : ws[o - first]? with
    | none => simp [hget] at hne
    | some w => simp [hget, h]
  · exact absurd (if_neg h) hne

theorem hostClaim_memory {kind : RequestKind} (hk : kind ≠ .refresh) (x : Station) (a : Access) (s : State) :
    (hostClaim kind x a s).memory = s.memory :=
  Moves.memory_eq (hostClaim_moves (E := fun e => e = .host) rfl hk x a s) nofun nofun

/-- The host's path: a WRITE that changes page memory writes into an owned page that is not DISPUTED. -/
theorem writeEffect_memory {page offset count : Byte} {ws : List Word} {s : State}
    (h : (writeEffect page offset count ws s).memory ≠ s.memory) :
    ∃ p : PageNo, page.toNat = p.val ∧ s.disputed p = false ∧ (s.variant p).isOwn = true ∧ 1 ≤ count.toNat ∧ count.toNat ≤ 16 ∧
      offset.toNat + count.toNat ≤ 64 ∧ count.toNat ≤ ws.length ∧
      (writeEffect page offset count ws s).memory = (putWords p offset.toNat (ws.take count.toNat) s).memory := by
  unfold writeEffect at h ⊢
  split at h
  · exact absurd rfl h
  next hlen =>
  rw [if_neg hlen]
  split at h
  · next a ha =>
    obtain ⟨hp, ho, hn, -, h1, h16, hrange⟩ := accessOf_eq_some.1 ha
    have hcount : writeWordCount count = count.toNat := if_pos ⟨h1, h16⟩
    cases hd : s.disputed a.page with
    | true => rw [writeRoute_of_disputed hd] at h; exact absurd rfl h
    | false =>
      cases hv : s.variant a.page with
      | none => rw [writeRoute_of_none hd hv] at h; exact absurd rfl h
      | own d r =>
        rw [writeRoute_of_own hd hv]
        refine ⟨a.page, hp.symm, hd, by rw [hv]; rfl, h1, h16, hrange, by omega, ?_⟩
        rw [respond_memory, storeWrite_memory, hv, ← ho, ← hn]
        rfl
      | mirror d r =>
        rw [writeRoute_of_peer hd (by rw [hv]; rfl) (by rw [hv]; rfl)] at h
        split at h
        · exact absurd rfl h
        · exact absurd (hostClaim_memory (by nofun) ..) h
      | fetch d =>
        rw [writeRoute_of_peer hd (by rw [hv]; rfl) (by rw [hv]; rfl)] at h
        split at h
        · exact absurd rfl h
        · exact absurd (hostClaim_memory (by nofun) ..) h
  · exact absurd rfl h

theorem ordinaryEffects_words {c : Instr} (hw : ∀ page offset count ws, c ≠ .write page offset count ws) :
    .words ∉ ordinaryEffects c := by
  cases c with
  | write page offset count ws => exact absurd rfl (hw page offset count ws)
  | _ => exact of_decide_eq_false rfl

/-- Settles O51: words change by a hardware reset, a host WRITE into an owned page, or a frame that applies words. -/
theorem memoryPaths : Obligations.MemoryPaths := by
  intro c s t p o hs h ho hne
  by_cases hh : c = .hardwareReset
  · subst hh
    obtain rfl := Host.Outcome.next.inj h
    exact .inl ⟨rfl, rfl⟩
  by_cases hsoft : c = .softReset
  · subst hsoft
    have hmem := Moves.memory_eq (exec_moves h (E := (· ∈ rowEffects .softReset)) fun _ he => he) (of_decide_eq_false rfl)
      (of_decide_eq_false rfl)
    exact absurd (word_of_memory hmem p o) hne
  by_cases hW : WritesWords c s
  · obtain ⟨q, first, ws, watch, happ⟩ := hW
    obtain ⟨x, window, hrange, hmem, -⟩ := exec_wordsApplied happ h
    obtain ⟨rfl, hfirst, hget⟩ := changed_of_putWords hs hrange (hmem.trans (by rw [putWords_memory, heard_memory]; rfl)) ho hne
    exact .inr (.inr ⟨first, ws, watch, happ, hfirst, hget⟩)
  by_cases hwrite : ∃ page offset count ws, c = .write page offset count ws
  · obtain ⟨page, offset, count, ws, rfl⟩ := hwrite
    have hheld : s.resetHeld = false := by
      by_contra hheld
      have hst : s = t := Host.Outcome.next.inj ((taken_of_held _ (by simpa using hheld)).symm.trans h)
      exact hne (by rw [hst])
    obtain rfl := effect_of_taken hheld h
    obtain ⟨q, hp, hd, hv, h1, h16, hrange, hlen, hmem⟩ :=
      writeEffect_memory fun e => hne (word_of_memory e p o)
    have htake : (ws.take count.toNat).length = count.toNat := by rw [List.length_take]; omega
    obtain ⟨rfl, hfirst, hget⟩ := changed_of_putWords hs (by omega) hmem ho hne
    obtain ⟨hi, -⟩ := List.getElem?_eq_some_iff.1 hget
    rw [List.getElem?_take_of_lt (by omega)] at hget
    exact .inr (.inl ⟨page, offset, count, ws, rfl, hheld, hp, hd, hv, h1, h16, hrange, hfirst, by omega, hget⟩)
  · have hmem := memory_eq_of_outcome (exec_outcome h hh hsoft)
      (ordinaryEffects_words fun page offset count ws e => hwrite ⟨page, offset, count, ws, e⟩) hW
    exact absurd (word_of_memory hmem p o) hne

end Sys2Proof.Machine
end

section
/-! PROOF. Host transactions: what their bytes spell, and what MISO carries back (R171 to R173). -/

namespace Sys2Proof.Machine

/-! ### Words and their bytes (R171) -/

theorem wordBytes_append (hi lo : Byte) : wordBytes (hi ++ lo) = [hi, lo] :=
  congrArg₂ (fun a b => [a, b]) BitVec.extractLsb'_append_eq_left BitVec.extractLsb'_append_eq_right

theorem append_of_word (w : Word) : (w.extractLsb' 8 8 ++ w.extractLsb' 0 8 : Word) = w :=
  (BitVec.extractLsb'_append_extractLsb'_eq_extractLsb' rfl).trans BitVec.extractLsb'_eq_self

theorem wordsBytes_length (ws : List Word) : (wordsBytes ws).length = 2 * ws.length := by
  induction ws with
  | nil => rfl
  | cons w ws ih => simp only [wordsBytes, wordBytes, List.length_append, List.length_cons, List.length_nil, ih]; omega

theorem takeWords_wordsBytes (ws : List Word) (more : List Byte) :
    takeWords ws.length (wordsBytes ws ++ more) = some ws := by
  induction ws with
  | nil => rfl
  | cons w ws ih =>
    change (takeWords ws.length (wordsBytes ws ++ more)).map (fun l => _ :: l) = _
    rw [ih, append_of_word]
    rfl

/-- Words taken from bytes are as many as asked for, and the bytes are theirs and what follows. -/
theorem takeWords_eq_some {n : Nat} {bytes : List Byte} {ws : List Word} (h : takeWords n bytes = some ws) :
    ws.length = n ∧ ∃ ignored, bytes = wordsBytes ws ++ ignored := by
  induction n generalizing bytes ws with
  | zero =>
    obtain rfl := Option.some.inj h
    exact ⟨rfl, bytes, rfl⟩
  | succ n ih =>
    match bytes, h with
    | hi :: lo :: rest, h =>
      obtain ⟨ws', hws, rfl⟩ := Option.map_eq_some_iff.1 h
      obtain ⟨hlen, ignored, rfl⟩ := ih hws
      refine ⟨congrArg (· + 1) hlen, ignored, ?_⟩
      rw [wordsBytes, wordBytes_append]
      rfl

/-! ### Commands and their bytes (R171, R173, R176, R178) -/

theorem ownerOf_station (x : Station) :
    byteOf x.val ≠ Config.ownerSelf ∧ ∃ h : (byteOf x.val).toNat < 32, (⟨(byteOf x.val).toNat, h⟩ : Station) = x := by
  have hx := byteOf_toNat_of_station x
  have hlt := x.isLt
  refine ⟨fun e => ?_, by omega, Fin.ext hx⟩
  rw [e] at hx
  simp only [Config.ownerSelf, BitVec.toNat_ofNat] at hx
  omega

theorem decodePageArgs_encode {args : PageArgs} (hwf : args.wf = true) {owner : Byte} {fields : List Byte}
    (h : encodePageArgs args = owner :: fields) (more : List Byte) : decodePageArgs owner (fields ++ more) = some args := by
  cases args with
  | self a b c d => cases h; rfl
  | none => cases h; rfl
  | peer x a b c d =>
    cases h
    obtain ⟨hself, hlt, hx⟩ := ownerOf_station x
    unfold decodePageArgs
    rw [if_neg hself, dif_pos hlt, hx]
    rfl
  | reserved o =>
    cases h
    simp only [PageArgs.wf, Bool.and_eq_true, bne_iff_ne, decide_eq_true_eq] at hwf
    obtain ⟨⟨hself, hnone⟩, hlt⟩ := hwf
    unfold decodePageArgs
    rw [if_neg hself, dif_neg (by omega), if_neg hnone]

theorem decodePageArgs_eq_some {owner : Byte} {fields : List Byte} {args : PageArgs}
    (h : decodePageArgs owner fields = some args) :
    args.wf = true ∧ ∃ used ignored, fields = used ++ ignored ∧ encodePageArgs args = owner :: used := by
  unfold decodePageArgs at h
  split at h
  · next hself =>
    subst hself
    split at h
    · next a b c d rest =>
      cases h
      exact ⟨rfl, [a, b, c, d], rest, rfl, rfl⟩
    · cases h
  next hself =>
  split at h
  · next hlt =>
    split at h
    · next a b c d rest =>
      cases h
      exact ⟨rfl, [a, b, c, d], rest, rfl, congrArg (· :: _) (byteOf_toNat owner)⟩
    · cases h
  next hlt =>
  split at h
  · next hnone =>
    cases h
    exact ⟨rfl, [], fields, rfl, by rw [hnone]; rfl⟩
  · next hnone =>
    cases h
    refine ⟨?_, [], fields, rfl, rfl⟩
    simp only [PageArgs.wf, Bool.and_eq_true, bne_iff_ne, decide_eq_true_eq]
    exact ⟨⟨hself, hnone⟩, by omega⟩

theorem decodeCommand_of_unknown {code : Byte} (h : isCommandCode code = false) (args : List Byte) :
    decodeCommand code args = some (.unknownCommand code) := by
  simp only [isCommandCode, Bool.or_eq_false_iff, decide_eq_false_iff_not] at h
  simp [decodeCommand, h]

/-- A well-formed host command is read back from its bytes, whatever follows them. -/
theorem decodeCommand_encode {c : Instr} {bytes : List Byte} (hwf : c.wf = true) (h : encodeCommand c = some bytes) :
    ∃ code args, bytes = code :: args ∧ ∀ more, decodeCommand code (args ++ more) = some c := by
  cases c with
  | setPage page args =>
    cases h
    refine ⟨_, _, rfl, fun more => ?_⟩
    cases he : encodePageArgs args with
    | nil => cases args <;> cases he
    | cons owner fields =>
      change (decodePageArgs owner (fields ++ more)).map _ = _
      rw [decodePageArgs_encode hwf he more]
      rfl
  | write a b count ws =>
    cases h
    refine ⟨_, _, rfl, fun more => ?_⟩
    change (takeWords (writeWordCount count) (wordsBytes ws ++ more)).map _ = _
    rw [← of_decide_eq_true hwf, takeWords_wordsBytes]
    rfl
  | unknownCommand code =>
    cases h
    exact ⟨code, [], rfl, fun more => decodeCommand_of_unknown (by simpa [Instr.wf] using hwf) more⟩
  | setStation | setChannel | setMask | join | leave | rejoin | softReset | read | collect | flush | status | peer | pageState
  | channelState | popNotify | clearEvents =>
    cases h
    exact ⟨_, _, rfl, fun more => rfl⟩
  | _ => cases h

/-- What a command byte and argument bytes spell is a well-formed command, whose bytes they begin with. -/
theorem decodeCommand_eq_some {code : Byte} {args : List Byte} {c : Instr} (h : decodeCommand code args = some c) :
    c.wf = true ∧ ∃ used ignored, args = used ++ ignored ∧ encodeCommand c = some (code :: used) := by
  have hhead : ∀ {f : Byte → Instr}, args.head?.map f = some c → ∃ a rest, args = a :: rest ∧ f a = c := fun {f} e => by
    obtain ⟨a, ha, hc⟩ := Option.map_eq_some_iff.1 e
    obtain ⟨rest, hrest⟩ := List.head?_eq_some_iff.1 ha
    exact ⟨a, rest, hrest, hc⟩
  by_cases hknown : isCommandCode code = false
  · rw [decodeCommand_of_unknown hknown] at h
    cases h
    exact ⟨by simp [Instr.wf, hknown], [], args, rfl, rfl⟩
  simp only [isCommandCode, Bool.not_eq_false, Bool.or_eq_true, decide_eq_true_eq] at hknown
  rcases hknown with (((((((((((((((((rfl | rfl) | rfl) | rfl) | rfl) | rfl) | rfl) | rfl) | rfl) | rfl) | rfl) | rfl) | rfl) | rfl) | rfl) |
    rfl) | rfl) | rfl)
  · match args, h with
    | _ :: _ :: _ :: _ :: _ :: _ :: rest, h => cases h; exact ⟨rfl, [_, _, _, _, _, _], rest, rfl, rfl⟩
  · match args, h with
    | page :: owner :: fields, h =>
      obtain ⟨pageArgs, hargs, rfl⟩ := Option.map_eq_some_iff.1 h
      obtain ⟨hwf, used, ignored, rfl, hused⟩ := decodePageArgs_eq_some hargs
      exact ⟨hwf, page :: owner :: used, ignored, rfl, congrArg (fun l => some (0x02#8 :: page :: l)) hused⟩
  · match args, h with
    | _ :: _ :: _ :: _ :: rest, h => cases h; exact ⟨rfl, [_, _, _, _], rest, rfl, rfl⟩
  · match args, h with
    | _ :: _ :: rest, h => cases h; exact ⟨rfl, [_, _], rest, rfl, rfl⟩
  · cases h; exact ⟨rfl, [], args, rfl, rfl⟩
  · cases h; exact ⟨rfl, [], args, rfl, rfl⟩
  · cases h; exact ⟨rfl, [], args, rfl, rfl⟩
  · cases h; exact ⟨rfl, [], args, rfl, rfl⟩
  · match args, h with
    | _ :: _ :: _ :: rest, h => cases h; exact ⟨rfl, [_, _, _], rest, rfl, rfl⟩
  · match args, h with
    | a :: b :: count :: rest, h =>
      obtain ⟨ws, hws, rfl⟩ := Option.map_eq_some_iff.1 h
      obtain ⟨hlen, ignored, rfl⟩ := takeWords_eq_some hws
      exact ⟨decide_eq_true hlen, a :: b :: count :: wordsBytes ws, ignored, rfl, rfl⟩
  · obtain ⟨a, rest, rfl, rfl⟩ := hhead h; exact ⟨rfl, [a], rest, rfl, rfl⟩
  · obtain ⟨a, rest, rfl, rfl⟩ := hhead h; exact ⟨rfl, [a], rest, rfl, rfl⟩
  · cases h; exact ⟨rfl, [], args, rfl, rfl⟩
  · obtain ⟨a, rest, rfl, rfl⟩ := hhead h; exact ⟨rfl, [a], rest, rfl, rfl⟩
  · obtain ⟨a, rest, rfl, rfl⟩ := hhead h; exact ⟨rfl, [a], rest, rfl, rfl⟩
  · obtain ⟨a, rest, rfl, rfl⟩ := hhead h; exact ⟨rfl, [a], rest, rfl, rfl⟩
  · cases h; exact ⟨rfl, [], args, rfl, rfl⟩
  · obtain ⟨a, rest, rfl, rfl⟩ := hhead h; exact ⟨rfl, [a], rest, rfl, rfl⟩

/-! ### Transactions (R172, R173) -/

theorem decodeTransaction_of_command {code : Byte} {args : List Byte} {c : Instr} (h : decodeCommand code args = some c) :
    decodeTransaction ⟨false, code :: args⟩ = c := by
  simp [decodeTransaction, h]

/-- A transaction is discarded, or it spells a well-formed command and then bytes that are ignored. -/
theorem decodeTransaction_cases (t : Transaction) :
    decodeTransaction t = .transactionDiscarded t ∨
      (t.sawReset = false ∧ (decodeTransaction t).wf = true ∧ ∃ used ignored, t.bytes = used ++ ignored ∧
        encodeCommand (decodeTransaction t) = some used) := by
  obtain ⟨sawReset, bytes⟩ := t
  cases sawReset with
  | true => exact .inl rfl
  | false =>
    cases bytes with
    | nil => exact .inl rfl
    | cons code args =>
      cases h : decodeCommand code args with
      | none => exact .inl (by simp [decodeTransaction, h])
      | some c =>
        obtain ⟨hwf, used, ignored, rfl, hused⟩ := decodeCommand_eq_some h
        rw [decodeTransaction_of_command h]
        exact .inr ⟨rfl, hwf, code :: used, ignored, rfl, hused⟩

/-- The bytes of a host command cut before the last of them spell no command: they would be the bytes of one command and begin
those of another. -/
theorem decodeTransaction_of_cut {c : Instr} {bytes : List Byte} {n : Nat} (hwf : c.wf = true)
    (h : encodeCommand c = some bytes) (hn : n < bytes.length) :
    decodeTransaction ⟨false, bytes.take n⟩ = .transactionDiscarded ⟨false, bytes.take n⟩ := by
  rcases decodeTransaction_cases ⟨false, bytes.take n⟩ with hcut | ⟨-, hwf', used, ignored, hused, hencode⟩
  · exact hcut
  exfalso
  have hcut : bytes.take n = used ++ ignored := hused
  obtain ⟨code, args, rfl, hread⟩ := decodeCommand_encode hwf' hencode
  obtain ⟨code', args', rfl, hread'⟩ := decodeCommand_encode hwf h
  have hsplit : code' :: args' = code :: (args ++ (ignored ++ (code' :: args').drop n)) := by
    have := List.take_append_drop n (code' :: args')
    rw [hcut] at this
    simpa using this.symm
  obtain ⟨rfl, hargs⟩ := List.cons_eq_cons.1 hsplit
  have hwhole := hread' []
  rw [List.append_nil, hargs] at hwhole
  rw [Option.some.inj ((hread _).symm.trans hwhole), h] at hencode
  have hlen := congrArg List.length hcut
  rw [List.length_take, ← Option.some.inj hencode, List.length_append] at hlen
  omega

theorem encodeTransaction_eq {c : Instr} (hc : ∀ u, c ≠ .transactionDiscarded u) :
    encodeTransaction c = (encodeCommand c).map fun bytes => ⟨false, bytes⟩ := by
  cases c with
  | transactionDiscarded u => exact absurd rfl (hc u)
  | _ => rfl

theorem not_discarded_of_encodeCommand {c : Instr} {bytes : List Byte} (h : encodeCommand c = some bytes) (u : Transaction) :
    c ≠ .transactionDiscarded u := by
  rintro rfl; cases h

/-- Settles O23: a cut command is discarded, as what its bytes spell could only be itself. -/
theorem transactionsWithoutEffect : Obligations.TransactionsWithoutEffect :=
  ⟨fun _ _ => rfl, fun _ h => if_pos h, fun _ _ _ => decodeTransaction_of_cut, fun _ _ h => next_of_effect h rfl,
    fun _ more h => decodeTransaction_of_command (decodeCommand_of_unknown h more)⟩

/-! ### The response (R171) -/

/-- The response holds a status byte. -/
def Answered (t : State) : Prop := ∃ status results, t.response = status :: results

theorem respond_answered (st : Status) (bytes : List Byte) (s : State) : Answered (respond st bytes s) := ⟨_, _, rfl⟩

theorem inSetup_answered {f : State → State} {s : State} (hf : Answered (f s)) : Answered (inSetup f s) := by
  unfold inSetup
  split
  · exact hf
  · exact respond_answered ..

theorem hostClaim_answered (kind : RequestKind) (x : Station) (a : Access) (s : State) : Answered (hostClaim kind x a s) := by
  unfold hostClaim
  repeat' split
  all_goals exact respond_answered ..

theorem readEffect_answered (page offset count : Byte) (s : State) : Answered (readEffect page offset count s) := by
  unfold readEffect
  split
  · unfold readRoute
    split
    · exact respond_answered ..
    · split
      · exact respond_answered ..
      · exact respond_answered ..
      · split <;> exact respond_answered ..
      · exact hostClaim_answered ..
  · exact respond_answered ..

theorem writeEffect_answered {page offset count : Byte} {ws : List Word} (hw : ws.length = writeWordCount count) (s : State) :
    Answered (writeEffect page offset count ws s) := by
  unfold writeEffect
  rw [if_neg (by omega)]
  split
  · unfold writeRoute
    split
    · exact respond_answered ..
    · split
      · exact respond_answered ..
      · exact respond_answered ..
      all_goals
        split
        · exact respond_answered ..
        · exact hostClaim_answered ..
  · exact respond_answered ..

theorem collectEffect_answered (tag : Byte) (s : State) : Answered (collectEffect tag s) := by
  unfold collectEffect collectEntry
  repeat' split
  all_goals exact respond_answered ..

theorem flushEffect_answered (page : Byte) (s : State) : Answered (flushEffect page s) := by
  unfold flushEffect flushPage
  repeat' split
  all_goals exact respond_answered ..

theorem joinEffect_answered (s : State) : Answered (joinEffect s) := by
  unfold joinEffect
  repeat' split
  all_goals exact respond_answered ..

theorem leaveEffect_answered (s : State) : Answered (leaveEffect s) := by
  unfold leaveEffect
  split <;> exact respond_answered ..

/-- Every host command is answered. -/
theorem exec_answered {c : Instr} {bytes : List Byte} {s t : State} (hwf : c.wf = true) (hc : encodeCommand c = some bytes)
    (hheld : s.resetHeld = false) (h : exec c s = .next t) : Answered t := by
  cases c with
  | setStation a b c d e f =>
    refine effect_of_taken hheld h ▸ inSetup_answered ?_
    unfold setStationEffect
    split <;> exact respond_answered ..
  | setPage page args =>
    refine effect_of_taken hheld h ▸ inSetup_answered ?_
    unfold setPageEffect
    split <;> exact respond_answered ..
  | setChannel a b c d =>
    refine effect_of_taken hheld h ▸ inSetup_answered ?_
    unfold setChannelEffect
    split <;> exact respond_answered ..
  | join => exact effect_of_taken hheld h ▸ joinEffect_answered s
  | leave => exact effect_of_taken hheld h ▸ leaveEffect_answered s
  | rejoin =>
    rw [effect_of_taken hheld h]
    unfold rejoinEffect
    split <;> exact respond_answered ..
  | read page offset count => exact effect_of_taken hheld h ▸ readEffect_answered page offset count s
  | write page offset count ws => exact effect_of_taken hheld h ▸ writeEffect_answered (of_decide_eq_true hwf) s
  | collect tag => exact effect_of_taken hheld h ▸ collectEffect_answered tag s
  | flush page => exact effect_of_taken hheld h ▸ flushEffect_answered page s
  | peer station =>
    rw [effect_of_taken hheld h]
    unfold peerEffect
    split <;> exact respond_answered ..
  | pageState page =>
    rw [effect_of_taken hheld h]
    unfold pageStateEffect
    split <;> exact respond_answered ..
  | channelState channel =>
    rw [effect_of_taken hheld h]
    unfold channelStateEffect
    split <;> exact respond_answered ..
  | popNotify =>
    rw [effect_of_taken hheld h]
    unfold popNotifyEffect
    split <;> exact respond_answered ..
  | setMask | softReset | status | clearEvents | unknownCommand => exact effect_of_taken hheld h ▸ respond_answered ..
  | _ => cases hc

/-- What MISO carries in a transaction that is answered. -/
theorem misoByte_answered (d : Nat) (status : Byte) (results : List Byte) :
    (∀ n, n < d → misoByte false (some d) (status :: results) n = some 0) ∧
      misoByte false (some d) (status :: results) d = some status ∧
      ∀ i, misoByte false (some d) (status :: results) (d + 1 + i) = some (results.getD i 0) := by
  refine ⟨fun n hn => ?_, ?_, fun i => ?_⟩
  · simp [misoByte, hn]
  · simp [misoByte]
  · have hsub : d + 1 + i - d = i + 1 := by omega
    simp only [misoByte, Bool.false_eq_true, if_false, if_neg (show ¬ d + 1 + i < d by omega), hsub, List.getD_cons_succ]

/-- Settles O47: both directions of the command codes, and the answer that every host command gives. -/
theorem transactionRoundTrip : Obligations.TransactionRoundTrip := by
  refine ⟨fun c t hwf h => ?_, fun t => ?_, fun c bytes s t hwf hc hheld h => ?_, fun decided response n => ⟨rfl, rfl⟩,
    fun b => ⟨rfl, fun i hi => ?_⟩⟩
  · by_cases hc : ∃ u, c = .transactionDiscarded u
    · obtain ⟨u, rfl⟩ := hc
      obtain rfl := Option.some.inj h
      exact ⟨of_decide_eq_true hwf, fun hne => absurd rfl (hne u)⟩
    · rw [encodeTransaction_eq fun u e => hc ⟨u, e⟩] at h
      obtain ⟨bytes, hbytes, rfl⟩ := Option.map_eq_some_iff.1 h
      obtain ⟨code, args, rfl, hread⟩ := decodeCommand_encode hwf hbytes
      refine ⟨decodeTransaction_of_command ?_, fun _ => ⟨rfl, fun more => decodeTransaction_of_command (hread more)⟩⟩
      have := hread []
      rwa [List.append_nil] at this
  · rcases decodeTransaction_cases t with h | ⟨hreset, hwf, used, ignored, hbytes, hencode⟩
    · rw [h]
      exact ⟨decide_eq_true h, t.bytes, [], (List.append_nil _).symm, rfl⟩
    · refine ⟨hwf, used, ignored, hbytes, ?_⟩
      rw [encodeTransaction_eq (not_discarded_of_encodeCommand hencode), hencode, hreset]
      rfl
  · obtain ⟨status, results, hresponse⟩ := exec_answered hwf hc hheld h
    rw [hresponse]
    exact ⟨status, results, rfl, misoByte_answered bytes.length status results⟩
  · interval_cases i <;> rfl

end Sys2Proof.Machine
end

section
/-! PROOF. The bits of a frame on the line: its levels, its CRC, and what a receiver makes of them (R112 to R120). -/

namespace Sys2Proof.Machine

/-! ### Levels (R113, R114) -/

theorem byteFrame_length (b : Byte) : (byteFrame b).length = 10 := rfl

theorem byteFrame_getElem? (b : Byte) :
    (byteFrame b)[0]? = some false ∧ (byteFrame b)[9]? = some true ∧
      ∀ j, j < 8 → (byteFrame b)[1 + j]? = some (b.getLsbD j) := by
  refine ⟨rfl, rfl, fun j hj => ?_⟩
  interval_cases j <;> rfl

theorem byteFrames_length (bytes : List Byte) : (byteFrames bytes).length = 10 * bytes.length := by
  induction bytes with
  | nil => rfl
  | cons b bs ih => rw [byteFrames, List.length_append, byteFrame_length, ih, List.length_cons]; omega

theorem byteFrames_append (bytes more : List Byte) : byteFrames (bytes ++ more) = byteFrames bytes ++ byteFrames more := by
  induction bytes with
  | nil => rfl
  | cons b bs ih => rw [List.cons_append, byteFrames, ih, byteFrames, List.append_assoc]

theorem frameLevels_length (bytes : List Byte) : (frameLevels bytes).length = 2 + 10 * bytes.length := by
  rw [frameLevels, List.length_cons, List.length_cons, byteFrames_length]; omega

theorem byteFrames_getElem? {bytes : List Byte} {i j : Nat} {b : Byte} (h : bytes[i]? = some b) (hj : j < 10) :
    (byteFrames bytes)[10 * i + j]? = (byteFrame b)[j]? := by
  induction bytes generalizing i with
  | nil => cases h
  | cons c bs ih =>
    rw [byteFrames]
    cases i with
    | zero =>
      obtain rfl := Option.some.inj h
      rw [List.getElem?_append_left (by rw [byteFrame_length]; omega), Nat.mul_zero, Nat.zero_add]
    | succ i =>
      rw [List.getElem?_append_right (by rw [byteFrame_length]; omega), byteFrame_length,
        show 10 * (i + 1) + j - 10 = 10 * i + j by omega]
      exact ih h

/-- The levels of byte `i` of a frame. -/
theorem frameLevels_getElem? {bytes : List Byte} {i : Nat} {b : Byte} (h : bytes[i]? = some b) :
    (frameLevels bytes)[2 + 10 * i]? = some false ∧ (frameLevels bytes)[2 + 10 * i + 9]? = some true ∧
      ∀ j, j < 8 → (frameLevels bytes)[2 + 10 * i + 1 + j]? = some (b.getLsbD j) := by
  obtain ⟨hstart, hstop, hdata⟩ := byteFrame_getElem? b
  have hget : ∀ j, j < 10 → (frameLevels bytes)[2 + 10 * i + j]? = (byteFrame b)[j]? := fun j hj => by
    rw [Nat.add_assoc, Nat.add_comm 2]
    exact byteFrames_getElem? h hj
  refine ⟨(hget 0 (by omega)).trans hstart, (hget 9 (by omega)).trans hstop, fun j hj => ?_⟩
  rw [Nat.add_assoc]
  exact (hget (1 + j) (by omega)).trans (hdata j hj)

/-! ### The CRC (R115) -/

/-- The data bits of bytes, in the order they are sent. -/
def dataBits (bytes : List Byte) : List Bool := bytes.flatMap byteBits

theorem dataBits_length (bytes : List Byte) : (dataBits bytes).length = 8 * bytes.length := by
  induction bytes with
  | nil => rfl
  | cons b bs ih =>
    change (byteBits b ++ dataBits bs).length = _
    rw [List.length_append, ih, List.length_cons]
    change 8 + _ = _
    omega

theorem dataBits_getElem? {bytes : List Byte} {i : Nat} {b : Byte} (h : bytes[i / 8]? = some b) :
    (dataBits bytes)[i]? = some (b.getLsbD (i % 8)) := by
  induction bytes generalizing i with
  | nil => cases h
  | cons c bs ih =>
    change (byteBits c ++ dataBits bs)[i]? = _
    by_cases hi : i < 8
    · rw [Nat.div_eq_of_lt hi] at h
      obtain rfl := Option.some.inj h
      rw [List.getElem?_append_left hi, Nat.mod_eq_of_lt hi]
      interval_cases i <;> rfl
    · obtain ⟨k, rfl⟩ : ∃ k, i = k + 8 := ⟨i - 8, by omega⟩
      rw [Nat.add_div_right k (by decide)] at h
      rw [List.getElem?_append_right (show 8 ≤ k + 8 by omega), Nat.add_mod_right]
      exact ih h

/-- The CRC register after the first `i` data bits. -/
def crcAfter (bytes : List Byte) (i : Nat) : BitVec 16 := ((dataBits bytes).take i).foldl crcBit 0xFFFF#16

theorem crcAfter_succ {bytes : List Byte} {i : Nat} {b : Byte} (h : bytes[i / 8]? = some b) :
    crcAfter bytes (i + 1) = crcBit (crcAfter bytes i) (b.getLsbD (i % 8)) := by
  have hget := dataBits_getElem? h
  obtain ⟨hi, hbit⟩ := List.getElem?_eq_some_iff.1 hget
  rw [crcAfter, List.take_succ_eq_append_getElem hi, List.foldl_append, hbit]
  rfl

theorem crcAfter_all (bytes : List Byte) : crcAfter bytes (8 * bytes.length) = crcOf bytes := by
  rw [crcAfter, ← dataBits_length, List.take_length, dataBits, List.foldl_flatMap]
  rfl

theorem crcBit_eq (reg : BitVec 16) (bit : Bool) :
    crcBit reg bit = if reg.getLsbD 15 = bit then reg <<< 1 else (reg <<< 1) ^^^ 0x1021#16 := by
  unfold crcBit
  cases reg.getLsbD 15 <;> cases bit <;> rfl

/-! ### Frames as they are sent (R114 to R116) -/

theorem frame_wire_length (f : Frame) : f.wire.length = 6 + f.body.bytes.length := by
  simp only [Frame.wire, Frame.bytes, wordBytes, List.length_append, List.length_cons, List.length_nil]
  omega

/-- Settles O49: byte frames one after another, and the CRC as the fold of its bits. -/
theorem frameBits : Obligations.FrameBits := by
  intro f
  refine ⟨?_, rfl, fun i b h => frameLevels_getElem? h, ⟨_, rfl⟩, crcAfter f.bytes, rfl, fun i b h => ?_, ?_⟩
  · rw [Frame.lineBits, frameLevels_length, frame_wire_length]
  · rw [crcAfter_succ h, crcBit_eq]
  · rw [crcAfter_all]
    rfl


/-! ### Frames as they are received (R117) -/

theorem levelAt_of_getElem? {levels : List Bool} {i : Nat} {l : Bool} (h : levels[i]? = some l) : levelAt levels i = l := by
  rw [levelAt, List.getD_eq_getElem?_getD, h]
  rfl

theorem levelAt_append {levels more : List Bool} {i : Nat} (h : i < levels.length) :
    levelAt (levels ++ more) i = levelAt levels i := by
  simp only [levelAt, List.getD_eq_getElem?_getD, List.getElem?_append_left h]

theorem getElem?_of_levelAt {levels : List Bool} {i : Nat} (h : i < levels.length) : levels[i]? = some (levelAt levels i) := by
  simp [levelAt, List.getD_eq_getElem?_getD, List.getElem?_eq_getElem h]

theorem quietAt_append {levels more : List Bool} {n : Nat} (h : n ≤ levels.length) :
    quietAt (levels ++ more) n = quietAt levels n := by
  induction n with
  | zero => rfl
  | succ n ih => rw [quietAt, quietAt, levelAt_append (by omega), ih (by omega)]

/-- The recessive bit times before bit time `n`, with the dominant one before them. -/
theorem quietAt_spec (levels : List Bool) (n : Nat) :
    quietAt levels n ≤ n ∧ (∀ i, n - quietAt levels n ≤ i → i < n → levelAt levels i = true) ∧
      (quietAt levels n < n → levelAt levels (n - 1 - quietAt levels n) = false) := by
  induction n with
  | zero => exact ⟨Nat.le_refl _, fun i _ h => absurd h (Nat.not_lt_zero i), fun h => absurd h (Nat.lt_irrefl _)⟩
  | succ n ih =>
    obtain ⟨hle, hquiet, hlast⟩ := ih
    rw [quietAt]
    cases hl : levelAt levels n with
    | true =>
      refine ⟨Nat.succ_le_succ hle, fun i h₁ h₂ => ?_, fun h => ?_⟩
      · simp only [if_true] at h₁
        rcases Nat.lt_succ_iff_lt_or_eq.1 h₂ with h | rfl
        · exact hquiet i (by omega) h
        · exact hl
      · simp only [if_true] at h ⊢
        rw [show n + 1 - 1 - (quietAt levels n + 1) = n - 1 - quietAt levels n by omega]
        exact hlast (by omega)
    | false => exact ⟨Nat.zero_le _, fun i h₁ h₂ => by simp at h₁; omega, fun _ => hl⟩

/-- A byte put together from its bits, bit 0 first. -/
theorem foldl_bits_getLsbD (f : Nat → Bool) (n : Nat) {k : Nat} (hk : k < 8) :
    ((List.range n).foldl (fun b j => if f j then b ||| BitVec.twoPow 8 j else b) 0).getLsbD k = (decide (k < n) && f k) := by
  induction n with
  | zero => simp
  | succ n ih =>
    rw [List.range_succ, List.foldl_append, List.foldl_cons, List.foldl_nil]
    have hlt : k ≠ n → ((k < n + 1) ↔ k < n) := fun hkn => by omega
    split
    · next hf =>
      rw [BitVec.getLsbD_or, ih, BitVec.getLsbD_twoPow]
      by_cases hkn : k = n
      · subst hkn; simp [hf, hk]
      · simp [hlt hkn, Ne.symm hkn]
    · next hf =>
      rw [ih]
      by_cases hkn : k = n
      · subst hkn; simp [hf]
      · rw [decide_eq_decide.2 (hlt hkn)]

/-- Byte frame `i` of the levels carries `b`. -/
def CarriesByte (levels : List Bool) (i : Nat) (b : Byte) : Prop :=
  levelAt levels (2 + 10 * i) = false ∧ levelAt levels (11 + 10 * i) = true ∧
    ∀ j, j < 8 → levelAt levels (3 + 10 * i + j) = b.getLsbD j

theorem CarriesByte.dataByte_eq {levels : List Bool} {i : Nat} {b : Byte} (h : CarriesByte levels i b) :
    dataByte levels i = b := by
  obtain ⟨-, -, hdata⟩ := h
  ext k hk
  rw [← BitVec.getLsbD_eq_getElem, ← BitVec.getLsbD_eq_getElem, dataByte, foldl_bits_getLsbD _ 8 hk, hdata k hk]
  simp [hk]

theorem CarriesByte.byteFinding_eq {levels : List Bool} {i : Nat} {b : Byte} (h : CarriesByte levels i b) :
    byteFinding levels i = none := by
  obtain ⟨hstart, hstop, -⟩ := h
  rw [byteFinding, if_neg (by simp [hstart]), if_pos hstop]

theorem carriesByte_frameLevels {bytes : List Byte} {i : Nat} {b : Byte} (h : bytes[i]? = some b) (more : List Bool) :
    CarriesByte (frameLevels bytes ++ more) i b := by
  obtain ⟨hstart, hstop, hdata⟩ := frameLevels_getElem? h
  have hlevel : ∀ {k l}, (frameLevels bytes)[k]? = some l → levelAt (frameLevels bytes ++ more) k = l := fun {k l} hk => by
    obtain ⟨hlt, -⟩ := List.getElem?_eq_some_iff.1 hk
    rw [levelAt_append hlt, levelAt_of_getElem? hk]
  refine ⟨hlevel hstart, hlevel ?_, fun j hj => hlevel ?_⟩
  · rw [show 11 + 10 * i = 2 + 10 * i + 9 by omega]; exact hstop
  · rw [show 3 + 10 * i + j = 2 + 10 * i + 1 + j by omega]; exact hdata j hj

theorem levelAt_one (bytes : List Byte) (more : List Bool) : levelAt (frameLevels bytes ++ more) 1 = true := rfl

/-- How many bytes the receiver awaits: six and the length in header byte 3. -/
def dueBytes (levels : List Bool) : Nat := 6 + (dataByte levels 3).toNat

/-- A frame that carries all its bytes is read as these bytes, whatever follows it. -/
theorem receiveLine_of_whole {own : Station} {bytes : List Byte} {len : Byte} (hlen : bytes[3]? = some len)
    (hbytes : bytes.length = 6 + len.toNat) (more : List Bool) :
    receiveLine own (frameLevels bytes ++ more) = decodeLine own bytes := by
  have hcarries : ∀ i (hi : i < bytes.length), CarriesByte (frameLevels bytes ++ more) i bytes[i] := fun i hi =>
    carriesByte_frameLevels (List.getElem?_eq_getElem hi) more
  have hdue : 6 + (dataByte (frameLevels bytes ++ more) 3).toNat = bytes.length := by
    rw [(carriesByte_frameLevels hlen more).dataByte_eq, hbytes]
  have hnone : (List.range bytes.length).findSome? (byteFinding (frameLevels bytes ++ more)) = none := by
    rw [List.findSome?_eq_none_iff]
    exact fun i hi => (hcarries i (List.mem_range.1 hi)).byteFinding_eq
  have hread : (List.range bytes.length).map (dataByte (frameLevels bytes ++ more)) = bytes := by
    refine List.ext_getElem (by simp) fun i h₁ h₂ => ?_
    rw [List.getElem_map, List.getElem_range]
    exact (hcarries i h₂).dataByte_eq
  unfold receiveLine
  rw [if_neg (by simp [levelAt_one])]
  simp only [hdue, hnone, hread]

/-- A frame broken in the byte after the bytes that have come is found broken there. -/
theorem receiveLine_of_broken {own : Station} {bytes : List Byte} {more : List Bool} {finding : Finding}
    (hdue : bytes.length < 6 + (dataByte (frameLevels bytes ++ more) 3).toNat)
    (hfinding : byteFinding (frameLevels bytes ++ more) bytes.length = some finding) :
    receiveLine own (frameLevels bytes ++ more) = .frameFoundBroken finding := by
  have hfirst : (List.range (6 + (dataByte (frameLevels bytes ++ more) 3).toNat)).findSome?
      (byteFinding (frameLevels bytes ++ more)) = some finding := by
    obtain ⟨k, hk⟩ : ∃ k, 6 + (dataByte (frameLevels bytes ++ more) 3).toNat = bytes.length + (k + 1) :=
      ⟨6 + (dataByte (frameLevels bytes ++ more) 3).toNat - bytes.length - 1, by omega⟩
    rw [hk, List.range_add, List.findSome?_append, List.findSome?_eq_none_iff.2 ?_, List.range_succ_eq_map, List.map_cons,
      List.findSome?_cons, Nat.add_zero, hfinding]
    · rfl
    · intro i hi
      have hi := List.mem_range.1 hi
      exact (carriesByte_frameLevels (List.getElem?_eq_getElem hi) more).byteFinding_eq
  unfold receiveLine
  rw [if_neg (by simp [levelAt_one])]
  simp only [hfirst]

end Sys2Proof.Machine
end

section
/-! PROOF. What a receiver makes of the bytes of a frame: the decoder and its encoder agree (R115 to R120). -/

namespace Sys2Proof.Machine

/-! ### Fields and their bytes (R116) -/

theorem pageSetOf_pageSetBytes (s : PageSet) :
    pageSetOf (s.extractLsb' 0 8) (s.extractLsb' 8 8) (s.extractLsb' 16 8) (s.extractLsb' 24 8) (s.extractLsb' 32 8)
      (s.extractLsb' 40 8) (s.extractLsb' 48 8) (s.extractLsb' 56 8) = s := by
  unfold pageSetOf
  repeat rw [BitVec.extractLsb'_append_extractLsb'_eq_extractLsb' (by rfl)]
  exact BitVec.extractLsb'_eq_self

theorem tagOfByte_tagIssueByte (t : Tag) (i : Issue) : tagOfByte (tagIssueByte t i) = t ∧ issueOfByte (tagIssueByte t i) = i := by
  have ht := t.isLt
  have hi := i.isLt
  have hbyte : (tagIssueByte t i).toNat = t.val * 16 + i.val := by
    simp only [tagIssueByte, byteOf, BitVec.toNat_ofNat]; omega
  exact ⟨Fin.ext (by simp only [tagOfByte, hbyte]; omega), Fin.ext (by simp only [issueOfByte, hbyte]; omega)⟩

theorem bytesWords_wordsBytes (ws : List Word) : bytesWords (wordsBytes ws) = ws := by
  induction ws with
  | nil => rfl
  | cons w ws ih =>
    change _ :: bytesWords (wordsBytes ws) = _
    rw [ih, append_of_word]

/-! ### The bytes of a frame as they are read (R115, R117) -/

theorem decodeLine_of_wire (own : Station) (h0 sender target hi lo : Byte) {body : List Byte} (hlen : body.length ≤ 255) :
    decodeLine own (h0 :: sender :: target :: byteOf body.length :: (body ++ [hi, lo])) =
      if hi ++ lo = crcOf (h0 :: sender :: target :: byteOf body.length :: body) then classify own h0 sender target body
      else .frameFoundBroken (.crcError (quietAfter (h0 :: sender :: target :: byteOf body.length :: (body ++ [hi, lo])))) := by
  have hbyte : (byteOf body.length).toNat = body.length := by
    simp only [byteOf, BitVec.toNat_ofNat]; omega
  simp only [decodeLine, hbyte, List.drop_left, List.take_left, List.cons_append]

theorem decodeLine_of_missing {own : Station} {bytes : List Byte}
    (h : bytes.length < 4 ∨ ∃ len, bytes[3]? = some len ∧ bytes.length < 6 + len.toNat) :
    decodeLine own bytes = .frameFoundBroken (.shortFrame (quietAfter bytes + 1)) := by
  unfold decodeLine
  split
  · next h0 sender target len rest =>
    rcases h with h | ⟨len', hlen, h⟩
    · simp only [List.length_cons] at h; omega
    · obtain rfl := Option.some.inj hlen
      simp only [List.length_cons] at h
      split
      · next hi lo _ hdrop =>
        have := congrArg List.length hdrop
        simp only [List.length_drop, List.length_cons] at this
        omega
      · rfl
  · rfl

/-! ### Malformed frames (R119) -/

theorem bodyLength_of_fits {kind : Nat} {body : List Byte} (h : LengthFits kind body) :
    bodyLength kind body = some body.length := by
  rcases h with ⟨rfl, h⟩ | ⟨rfl, h⟩ | ⟨rfl, h⟩ | ⟨rfl, c, hc, h⟩ | ⟨rfl, h⟩ | ⟨rfl, c, hc, h⟩ | ⟨rfl, st, c, hst, hc, h⟩ | ⟨rfl, h⟩
  · exact congrArg some h.symm
  · exact congrArg some h.symm
  · exact congrArg some h.symm
  · simp only [bodyLength, hc, h, Option.map_some]
  · exact congrArg some h.symm
  · simp only [bodyLength, hc, h, Option.map_some]
  · simp only [bodyLength, hst, hc, h]
  · exact congrArg some h.symm

theorem fits_of_bodyLength {kind : Nat} {body : List Byte} (h : bodyLength kind body = some body.length) :
    LengthFits kind body := by
  unfold bodyLength at h
  unfold LengthFits
  split at h
  case h_1 | h_2 | h_3 | h_5 | h_8 => simp [(Option.some.inj h).symm]
  case h_4 | h_6 =>
    obtain ⟨c, hc, hlen⟩ := Option.map_eq_some_iff.1 h
    simp [hc, hlen.symm]
  case h_7 =>
    split at h
    · next st c hst hc => simp [hst, hc, (Option.some.inj h).symm]
    · cases h
  case h_9 => cases h

theorem lengthFits_iff (kind : Nat) (body : List Byte) : LengthFits kind body ↔ bodyLength kind body = some body.length :=
  ⟨bodyLength_of_fits, fits_of_bodyLength⟩

theorem reservedBits_iff (b : Byte) :
    32 ≤ b.toNat ↔ b.getLsbD 5 = true ∨ b.getLsbD 6 = true ∨ b.getLsbD 7 = true := by
  have := b.isLt
  simp only [BitVec.getLsbD, Nat.testBit_eq_decide_div_mod_eq, decide_eq_true_eq]
  omega

theorem lastTest_iff {body : List Byte} {c : Byte} (h : body[3]? = some c) :
    ((body.getD 3 0).toNat = 0 ∨ 63 < (body.getD 0 0).toNat) ↔
      body[3]? = some 0 ∨ ∃ p, body[0]? = some p ∧ 63 < p.toNat := by
  obtain ⟨hlen, -⟩ := List.getElem?_eq_some_iff.1 h
  have h0 : body[0]? = some body[0] := List.getElem?_eq_getElem (by omega)
  simp only [List.getD_eq_getElem?_getD, h, h0, Option.getD_some, Option.some.injEq, exists_eq_left', byte_eq_zero_iff]

/-- The tests of R119 one by one: each sorts out its frames before the next looks at the rest. -/
theorem malformed_iff (h0 sender target : Byte) (body : List Byte) :
    malformed h0 sender target body = true ↔ FoundMalformed h0 sender target body := by
  have hlast : LengthFits (h0.toNat % 16) body → h0.toNat % 16 = 4 → ∃ c, body[3]? = some c := by
    rintro hfits hk
    simp only [LengthFits, hk] at hfits
    obtain ⟨c, hc, -⟩ : ∃ c, body[3]? = some c ∧ body.length = 4 + 2 * c.toNat := by simpa using hfits
    exact ⟨c, hc⟩
  unfold malformed FoundMalformed
  rw [← reservedBits_iff h0, lengthFits_iff]
  rw [lengthFits_iff] at hlast
  simp only [Bool.if_true_left, Bool.or_eq_true, decide_eq_true_eq, Bool.and_eq_true, bne_iff_ne, Bool.ite_eq_true_distrib, ne_eq, Config.longestBody]
  refine or_congr_right ?_
  generalize h0.toNat % 16 = kind at hlast ⊢
  by_cases hzero : kind = 0
  · simp [hzero]
  have hall : kindToAll kind = true ↔ kind ≤ 4 := by
    simp only [kindToAll, Bool.or_eq_true, decide_eq_true_eq]
    omega
  refine or_congr or_assoc (or_congr_right (or_congr_right (or_congr (by simp only [hall, Config.toAll]) ?_)))
  by_cases hfits : bodyLength kind body = some body.length
  · refine or_congr_right ?_
    rw [Bool.false_eq_true, or_false]
    exact and_congr_right fun hk => (hlast hfits hk).elim fun c hc => lastTest_iff hc
  · simp only [hfits, not_false_eq_true, true_or]

/-! ### The body fields of a frame (Table 7.3) -/

/-- The body of a frame that no test finds malformed is read, and an UPDATE's page is one of the common space. -/
theorem parseBody_of_not_malformed {h0 sender target : Byte} {body : List Byte} (h : ¬ FoundMalformed h0 sender target body) :
    ∃ b, parseBody h0 body = some b ∧ ∀ page v first ws, b = .update page v first ws → page.toNat < 64 := by
  simp only [FoundMalformed, not_or, not_not] at h
  obtain ⟨-, -, -, -, -, hfits, hlast⟩ := h
  unfold parseBody
  rcases hfits with ⟨hk, hlen⟩ | ⟨hk, hlen⟩ | ⟨hk, hlen⟩ | ⟨hk, c, hc, -⟩ | ⟨hk, hlen⟩ | ⟨hk, c, hc, hlen⟩ |
    ⟨hk, st, c, -, hc, -⟩ | ⟨hk, hlen⟩
  · rw [hk]
    match body, hlen with
    | [_, _, _, _, _, _, _, _, _, _], _ => exact ⟨_, rfl, nofun⟩
  · obtain rfl := List.length_eq_zero_iff.1 hlen
    rw [hk]
    exact ⟨_, rfl, nofun⟩
  · obtain rfl := List.length_eq_zero_iff.1 hlen
    rw [hk]
    exact ⟨_, rfl, nofun⟩
  · match body, hc with
    | page :: _ :: _ :: _ :: _, _ =>
      have hpage : page.toNat < 64 := by
        by_contra hbig
        exact hlast ⟨hk, .inr ⟨page, rfl, by omega⟩⟩
      rw [hk]
      refine ⟨_, rfl, fun _ _ _ _ e => ?_⟩
      obtain ⟨rfl, -⟩ := FrameBody.update.inj e
      exact hpage
  · rw [hk]
    match body, hlen with
    | [_, _, _, _, _], _ => exact ⟨_, rfl, nofun⟩
  · rw [hk]
    match body, hc, hlen with
    | _ :: _ :: _ :: _ :: _ :: _, _, _ => exact ⟨_, rfl, nofun⟩
    | [_, _, c], rfl, hlen => simp at hlen; omega
    | [_, _, c, _], rfl, hlen => simp at hlen; omega
  · rw [hk]
    match body, hc with
    | _ :: _ :: _ :: _ :: _ :: _ :: _, _ => exact ⟨_, rfl, nofun⟩
  · rw [hk]
    match body, hlen with
    | [_, _, _], _ => exact ⟨_, rfl, nofun⟩

/-- A row read from a body is no malformed frame's, but for an UPDATE of a page past the common space. -/
theorem bodyRow_not_malformed {own x : Station} {target b : Byte} {body : FrameBody}
    (h : ∀ page v first ws, body = .update page v first ws → page.toNat < 64) : bodyRow own x target body ≠ .malformedFrame b := by
  unfold bodyRow
  split
  · nofun
  · nofun
  · nofun
  · next page v first ws =>
    rw [dif_pos (h page v first ws rfl)]
    nofun
  all_goals split <;> nofun

theorem classify_of_own {own : Station} {h0 sender target : Byte} {body : List Byte} (h : sender = byteOf own.val) :
    classify own h0 sender target body = .duplicateStationFrame := if_pos h

theorem classify_of_good {own x : Station} {h0 sender target : Byte} {body : List Byte} {b : FrameBody}
    (hne : x ≠ own) (hx : sender = byteOf x.val) (hgood : ¬ FoundMalformed h0 sender target body)
    (hb : parseBody h0 body = some b) : classify own h0 sender target body = bodyRow own x target b := by
  have hsender : sender ≠ byteOf own.val := fun e => hne (by
    have := stationOf_byteOf x
    rw [← hx, e, stationOf_byteOf] at this
    exact (Option.some.inj this).symm)
  have hval : sender.toNat = x.val := by rw [hx, byteOf_toNat_of_station]
  have hlt : sender.toNat < 32 := by have := x.isLt; omega
  have hstation : (⟨sender.toNat, hlt⟩ : Station) = x := Fin.ext hval
  unfold classify
  rw [if_neg hsender, if_neg (by rwa [malformed_iff]), dif_pos hlt, hb, hstation]

theorem classify_malformed_iff {own : Station} {h0 sender target : Byte} {body : List Byte} (hne : sender ≠ byteOf own.val) :
    classify own h0 sender target body = .malformedFrame sender ↔ FoundMalformed h0 sender target body := by
  refine ⟨fun h => ?_, fun h => ?_⟩
  · by_contra hgood
    obtain ⟨b, hb, hpage⟩ := parseBody_of_not_malformed hgood
    have hlt : sender.toNat < 32 := by
      by_contra hbig
      exact hgood (.inr (.inr (.inr (.inl (by omega)))))
    have hsender : sender = byteOf (⟨sender.toNat, hlt⟩ : Station).val := (byteOf_toNat sender).symm
    rw [classify_of_good (fun e => hne (by rw [hsender, e])) hsender hgood hb] at h
    exact bodyRow_not_malformed hpage h
  · unfold classify
    rw [if_neg hne, if_pos (by rwa [malformed_iff])]

/-! ### Frames as a station builds them (Tables 7.2 and 7.3) -/

theorem headerByte_spec (b : FrameBody) :
    b.headerByte.toNat % 16 = b.kindCode.toNat ∧ b.headerByte.toNat < 32 ∧ b.headerByte.getLsbD 4 = b.joinFlag ∧
      (b.joinFlag = true → b.kindCode.toNat = 1) ∧ 1 ≤ b.kindCode.toNat ∧ b.kindCode.toNat ≤ 8 := by
  have hbit : b.headerByte.getLsbD 4 = b.joinFlag := by
    cases b with
    | announce j _ _ _ => cases j <;> simp [FrameBody.headerByte, FrameBody.joinFlag, FrameBody.kindCode]
    | _ => simp [FrameBody.headerByte, FrameBody.joinFlag, FrameBody.kindCode]
  cases b with
  | announce j _ _ _ =>
    refine ⟨?_, ?_, hbit, fun _ => rfl, of_decide_eq_true rfl, of_decide_eq_true rfl⟩
    all_goals cases j <;> simp [FrameBody.headerByte, FrameBody.joinFlag, FrameBody.kindCode]
  | _ => exact ⟨rfl, of_decide_eq_true rfl, hbit, nofun, of_decide_eq_true rfl, of_decide_eq_true rfl⟩

theorem byteOf_toNat_of_le {n : Nat} (h : n ≤ 255) : (byteOf n).toNat = n := by
  simp only [byteOf, BitVec.toNat_ofNat]
  omega

/-- The body of a well-formed frame has the length of its kind, an UPDATE's page and count are in range, and the body is read
back. -/
structure BodyReads (b : FrameBody) : Prop where
  length : b.bytes.length ≤ 134
  fits : LengthFits b.kindCode.toNat b.bytes
  update : b.kindCode.toNat = 4 → ∃ p c, b.bytes[0]? = some p ∧ p.toNat < 64 ∧ b.bytes[3]? = some c ∧ c.toNat ≠ 0
  parse : parseBody b.headerByte b.bytes = some b

theorem bodyReads_of_wf {b : FrameBody} (hwf : b.wf = true) : BodyReads b := by
  cases b with
  | announce j ring silence owned =>
    refine ⟨of_decide_eq_true rfl, .inl ⟨rfl, rfl⟩, nofun, ?_⟩
    obtain ⟨hkind, -, hbit, -⟩ := headerByte_spec (.announce j ring silence owned)
    unfold parseBody
    rw [hkind, hbit]
    exact congrArg (fun l => some (FrameBody.announce j ring silence l)) (pageSetOf_pageSetBytes owned)
  | presence => exact ⟨of_decide_eq_true rfl, .inr (.inl ⟨rfl, rfl⟩), nofun, rfl⟩
  | leave => exact ⟨of_decide_eq_true rfl, .inr (.inr (.inl ⟨rfl, rfl⟩)), nofun, rfl⟩
  | update page version first ws =>
    obtain ⟨hpage, hws⟩ := Bool.and_eq_true_iff.1 hwf
    obtain ⟨h1, hlen⟩ := of_decide_eq_true hws
    simp only [Config.longestBody] at hlen
    have hcount : (byteOf ws.length).toNat = ws.length := byteOf_toNat_of_le (by omega)
    have hbytes : (FrameBody.update page version first ws).bytes.length = 4 + 2 * ws.length := by
      simp only [FrameBody.bytes, List.length_cons, wordsBytes_length]; omega
    refine ⟨by omega, .inr (.inr (.inr (.inl ⟨rfl, _, rfl, by rw [hbytes, hcount]⟩))),
      fun _ => ⟨page, _, rfl, of_decide_eq_true hpage, rfl, by omega⟩, ?_⟩
    exact congrArg (fun l => some (FrameBody.update page version first l)) (bytesWords_wordsBytes ws)
  | fetch page offset count t i a =>
    obtain ⟨ht, hi⟩ := tagOfByte_tagIssueByte t i
    refine ⟨of_decide_eq_true rfl, .inr (.inr (.inr (.inr (.inl ⟨rfl, rfl⟩)))), nofun, ?_⟩
    exact congrArg₂ (fun t i => some (FrameBody.fetch page offset count t i a)) ht hi
  | write page offset t i a ws =>
    obtain ⟨ht, hi⟩ := tagOfByte_tagIssueByte t i
    have hlen := of_decide_eq_true hwf
    simp only [Config.longestBody] at hlen
    have hcount : (byteOf ws.length).toNat = ws.length := byteOf_toNat_of_le (by omega)
    have hbytes : (FrameBody.write page offset t i a ws).bytes.length = 5 + 2 * ws.length := by
      simp only [FrameBody.bytes, List.length_cons, wordsBytes_length]; omega
    refine ⟨by omega, .inr (.inr (.inr (.inr (.inr (.inl ⟨rfl, _, rfl, by rw [hbytes, hcount]⟩))))), nofun, ?_⟩
    change some (FrameBody.write page offset _ _ a _) = _
    rw [ht, hi, bytesWords_wordsBytes]
  | reply t i a status page version count ws =>
    obtain ⟨ht, hi⟩ := tagOfByte_tagIssueByte t i
    have hbytes : (FrameBody.reply t i a status page version count ws).bytes.length = 6 + 2 * ws.length := by
      simp only [FrameBody.bytes, List.length_cons, wordsBytes_length]; omega
    have hlen : 6 + 2 * ws.length ≤ 134 ∧ 6 + 2 * ws.length = if status = 0 then 6 + 2 * count.toNat else 6 := by
      simp only [FrameBody.wf, replyWf] at hwf
      split at hwf
      · next hst =>
        obtain ⟨hws, hlong⟩ := of_decide_eq_true hwf
        rw [if_pos hst, hws]
        simp only [Config.longestBody] at hlong
        omega
      · next hst =>
        rw [if_neg hst, List.isEmpty_iff.1 hwf]
        exact ⟨of_decide_eq_true rfl, rfl⟩
    refine ⟨by omega, .inr (.inr (.inr (.inr (.inr (.inr (.inl ⟨rfl, _, _, rfl, rfl, by rw [hbytes]; exact hlen.2⟩)))))),
      nofun, ?_⟩
    change some (FrameBody.reply _ _ a status page version count _) = _
    rw [ht, hi, bytesWords_wordsBytes]
  | ack t i a status =>
    obtain ⟨ht, hi⟩ := tagOfByte_tagIssueByte t i
    refine ⟨of_decide_eq_true rfl, .inr (.inr (.inr (.inr (.inr (.inr (.inr ⟨rfl, rfl⟩)))))), nofun, ?_⟩
    exact congrArg₂ (fun t i => some (FrameBody.ack t i a status)) ht hi

/-- No test of R119 finds a well-formed frame malformed. -/
theorem not_malformed_of_wf {f : Frame} (hwf : f.wf = true) :
    ¬ FoundMalformed f.body.headerByte f.sender f.target f.body.bytes := by
  simp only [Frame.wf, Bool.and_eq_true, decide_eq_true_eq] at hwf
  obtain ⟨⟨hsender, htarget⟩, hbody⟩ := hwf
  obtain ⟨hkind, hsmall, hbit, hjoin, h1, h8⟩ := headerByte_spec f.body
  obtain ⟨hlen, hfits, hupdate, -⟩ := bodyReads_of_wf hbody
  have hall : kindToAll f.body.kindCode.toNat = true ↔ f.body.kindCode.toNat ≤ 4 := by
    simp only [kindToAll, Bool.or_eq_true, decide_eq_true_eq]
    omega
  unfold FoundMalformed
  rw [hkind, ← reservedBits_iff, hbit]
  rintro (h | h | ⟨hj, hne⟩ | h | h | h | ⟨h4, h⟩)
  · omega
  · omega
  · exact hne (hjoin hj)
  · omega
  · by_cases hk : f.body.kindCode.toNat ≤ 4
    · rw [if_pos (hall.2 hk), beq_iff_eq] at htarget
      rw [if_pos hk] at h
      exact h htarget
    · rw [if_neg (fun e => hk (hall.1 e)), decide_eq_true_eq] at htarget
      rw [if_neg hk] at h
      omega
  · exact h hfits
  · obtain ⟨p, c, hp, hpage, hc, hcount⟩ := hupdate h4
    rcases h with h | ⟨q, hq, hbig⟩
    · rw [Option.some.inj (hc.symm.trans h)] at hcount
      exact hcount rfl
    · rw [Option.some.inj (hp.symm.trans hq)] at hpage
      omega

/-! ### The round trip (R113 to R120) -/

/-- The bytes of a frame as they stand on the line: header, body and two CRC bytes. -/
theorem wire_getElem? {wire body : List Byte} {h0 sender target hi lo : Byte} (hlen : body.length ≤ 255)
    (hwire : wire = h0 :: sender :: target :: byteOf body.length :: (body ++ [hi, lo])) :
    wire[3]? = some (byteOf body.length) ∧ wire.length = 6 + (byteOf body.length).toNat := by
  subst hwire
  refine ⟨rfl, ?_⟩
  simp only [List.length_cons, List.length_append, List.length_nil, byteOf_toNat_of_le hlen]
  omega

theorem frame_wire_eq (f : Frame) :
    f.wire = f.body.headerByte :: f.sender :: f.target :: byteOf f.body.bytes.length ::
      (f.body.bytes ++ [(crcOf f.bytes).extractLsb' 8 8, (crcOf f.bytes).extractLsb' 0 8]) := rfl

theorem decodeLine_frame {own : Station} {f : Frame} (hlen : f.body.bytes.length ≤ 255) :
    decodeLine own f.wire = classify own f.body.headerByte f.sender f.target f.body.bytes := by
  rw [frame_wire_eq, decodeLine_of_wire own _ _ _ _ _ hlen]
  exact if_pos (append_of_word _)

/-- A frame cut before its last byte is found broken in the byte that is missing. -/
theorem dueBytes_of_cut {own : Station} {wire : List Byte} {len : Byte} (hlen : wire[3]? = some len) (hwire : wire.length = 6 + len.toNat)
    {n : Nat} (hn : n < wire.length) (more : List Bool) :
    (wire.take n).length = n ∧ n < 6 + (dataByte (frameLevels (wire.take n) ++ more) 3).toNat ∧
      decodeLine own (wire.take n) = .frameFoundBroken (.shortFrame (quietAfter (wire.take n) + 1)) := by
  have htake : (wire.take n).length = n := by rw [List.length_take]; omega
  refine ⟨htake, ?_, decodeLine_of_missing ?_⟩
  · by_cases h4 : n < 4
    · omega
    · have hlen' : (wire.take n)[3]? = some len := by rw [List.getElem?_take_of_lt (by omega)]; exact hlen
      rw [(carriesByte_frameLevels hlen' more).dataByte_eq]
      omega
  · by_cases h4 : n < 4
    · exact .inl (by omega)
    · refine .inr ⟨len, ?_, by omega⟩
      rw [List.getElem?_take_of_lt (by omega)]
      exact hlen

theorem levelAt_after (bytes : List Byte) (more : List Bool) (j : Nat) :
    levelAt (frameLevels bytes ++ more) (2 + 10 * bytes.length + j) = more.getD j true := by
  have hlen := frameLevels_length bytes
  simp only [levelAt, List.getD_eq_getElem?_getD]
  rw [List.getElem?_append_right (by omega), hlen, Nat.add_sub_cancel_left]

/-- A start bit that is due and recessive: a short frame, with the recessive bit times up to the end of that bit. -/
theorem byteFinding_of_recessive (bytes : List Byte) (more : List Bool) :
    byteFinding (frameLevels bytes ++ true :: more) bytes.length = some (.shortFrame (quietAfter bytes + 1)) := by
  have hstart : levelAt (frameLevels bytes ++ true :: more) (2 + 10 * bytes.length) = true :=
    levelAt_after bytes (true :: more) 0
  have hquiet : quietAt (frameLevels bytes ++ true :: more) (3 + 10 * bytes.length) = quietAfter bytes + 1 := by
    rw [show 3 + 10 * bytes.length = 2 + 10 * bytes.length + 1 by omega, quietAt, if_pos hstart,
      quietAt_append (by rw [frameLevels_length])]
    rfl
  rw [byteFinding, if_pos hstart, hquiet]

theorem byteFinding_of_dominant_stop (bytes : List Byte) (b : Byte) (more : List Bool) :
    byteFinding (frameLevels bytes ++ (false :: byteBits b ++ false :: more)) bytes.length = some .badStopBit := by
  have hstart : levelAt (frameLevels bytes ++ (false :: byteBits b ++ false :: more)) (2 + 10 * bytes.length) = false :=
    levelAt_after bytes (false :: byteBits b ++ false :: more) 0
  have hstop := levelAt_after bytes (false :: byteBits b ++ false :: more) 9
  rw [show 2 + 10 * bytes.length + 9 = 11 + 10 * bytes.length by omega] at hstop
  rw [byteFinding, if_neg (by rw [hstart]; nofun), if_neg (by rw [hstop]; nofun)]

/-- What quiet is at the end of the last stop bit. -/
theorem quietAfter_spec {bytes : List Byte} {levels : List Bool} {q : Nat} (hl : levels = frameLevels bytes)
    (hq : q = quietAfter bytes) :
    q < levels.length ∧ levels[levels.length - 1 - q]? = some false ∧
      ∀ i, levels.length - q ≤ i → i < levels.length → levels[i]? = some true := by
  have hlen : levels.length = 2 + 10 * bytes.length := by rw [hl, frameLevels_length]
  obtain ⟨hle, hquiet, hlast⟩ := quietAt_spec levels levels.length
  have hq : quietAt levels levels.length = q := by rw [hq, hlen, hl]; rfl
  rw [hq] at hle hquiet hlast
  have hstart : levelAt levels 0 = false := by rw [hl]; rfl
  have hlt : q < levels.length := by
    by_contra hge
    rw [hquiet 0 (by omega) (by omega)] at hstart
    exact nomatch hstart
  refine ⟨hlt, ?_, fun i h₁ h₂ => ?_⟩
  · rw [getElem?_of_levelAt (by omega), hlast hlt]
  · rw [getElem?_of_levelAt h₂, hquiet i h₁ h₂]

/-- Settles O48: bytes and levels are read alike, and the findings are the first byte frame that is not as sent. -/
theorem frameRoundTrip : Obligations.FrameRoundTrip := by
  refine ⟨fun own x f hwf hsender => ?_, fun own h0 sender target hi lo body bytes wire hlen hbytes hwire => ?_,
    fun own more => rfl, fun bytes levels q => quietAfter_spec⟩
  · have hbody : f.body.wf = true := (Bool.and_eq_true_iff.1 hwf).2
    obtain ⟨hlen, -, -, hparse⟩ := bodyReads_of_wf hbody
    have hlen' : f.body.bytes.length ≤ 255 := by omega
    have hdecode := decodeLine_frame (own := own) hlen'
    obtain ⟨hget, hlength⟩ := wire_getElem? hlen' (frame_wire_eq f)
    refine ⟨fun hne => ?_, fun hown => ?_, fun more => receiveLine_of_whole hget hlength more⟩
    · exact hdecode.trans (classify_of_good hne hsender (not_malformed_of_wf hwf) hparse)
    · exact hdecode.trans (classify_of_own (by rw [hsender, hown]))
  · have hwhole : wire = h0 :: sender :: target :: byteOf body.length :: (body ++ [hi, lo]) := by
      rw [hwire, hbytes]
      rfl
    obtain ⟨hget, hlength⟩ := wire_getElem? hlen hwhole
    have hdecode := decodeLine_of_wire own h0 sender target hi lo hlen
    rw [← hwhole, ← hbytes] at hdecode
    refine ⟨fun more => receiveLine_of_whole hget hlength more, fun hcrc => ⟨fun hown => ?_, fun hne => ?_⟩, fun hcrc => ?_,
      fun n hn => ?_⟩
    · exact (hdecode.trans (if_pos hcrc)).trans (classify_of_own hown)
    · rw [← classify_malformed_iff hne]
      exact iff_of_eq (congrArg (· = _) (hdecode.trans (if_pos hcrc)))
    · exact hdecode.trans (if_neg hcrc)
    · have hcut := fun more => dueBytes_of_cut (own := own) hget hlength hn more
      obtain ⟨htake, -, hshort⟩ := hcut []
      refine ⟨hshort, fun more => ?_, fun b more => ?_⟩
      · obtain ⟨-, hdue, -⟩ := hcut (true :: more)
        rw [hshort]
        exact receiveLine_of_broken (by rw [htake]; exact hdue) (byteFinding_of_recessive _ more)
      · obtain ⟨-, hdue, -⟩ := hcut (false :: byteBits b ++ false :: more)
        rw [List.append_assoc]
        exact receiveLine_of_broken (by rw [htake]; exact hdue) (byteFinding_of_dominant_stop _ b more)

end Sys2Proof.Machine
end

section
/-! PROOF. The steps: the front command, and the clock where none waits. -/

namespace Sys2Proof.Machine

/-! ### The rows that are due, each once -/

/-- The order of the due rows in the queue, by kind. -/
def dueKind : Instr → Nat
  | .brokenFrameEnd => 0
  | .recoveringEnd => 0
  | .gatherChannelExpiry _ => 1
  | .periodChannelExpiry _ => 1
  | .replyTimerExpiry _ => 2
  | .ageCounterExpiry _ => 3
  | .silenceCounterExpiry _ => 4
  | .presenceTimerExpiry => 5
  | _ => 6

/-- Rows without repetition, of kinds below `k`. -/
def OnceBelow (k : Nat) (rows : List Instr) : Prop := rows.Nodup ∧ ∀ c ∈ rows, dueKind c < k

theorem OnceBelow.append {k : Nat} {rows more : List Instr} (h : OnceBelow k rows) (hmore : more.Nodup)
    (hkind : ∀ c ∈ more, dueKind c = k) : OnceBelow (k + 1) (rows ++ more) := by
  obtain ⟨hnd, hlt⟩ := h
  refine ⟨List.nodup_append.2 ⟨hnd, hmore, fun a ha b hb e => ?_⟩, fun c hc => ?_⟩
  · have := hlt a ha
    rw [e, hkind b hb] at this
    omega
  · rcases List.mem_append.1 hc with h | h
    · exact Nat.lt_succ_of_lt (hlt c h)
    · rw [hkind c h]; exact Nat.lt_succ_self k

/-- The rows of one kind, each with the counter it comes from. -/
theorem OnceBelow.append_rows {k n : Nat} {rows : List Instr} {f : Fin n → Option Instr} (h : OnceBelow k rows)
    (hinj : ∀ i j c, f i = some c → f j = some c → i = j) (hkind : ∀ i c, f i = some c → dueKind c = k) :
    OnceBelow (k + 1) (rows ++ (List.finRange n).filterMap f) := by
  refine h.append ((List.nodup_finRange n).filterMap fun i j c hi hj => hinj i j c hi hj) fun c hc => ?_
  obtain ⟨i, -, hi⟩ := List.mem_filterMap.1 hc
  exact hkind i c hi

theorem OnceBelow.append_if {k : Nat} {rows : List Instr} {p : Prop} [Decidable p] {c : Instr} (h : OnceBelow k rows)
    (hc : dueKind c = k) : OnceBelow (k + 1) (rows ++ if p then [c] else []) := by
  refine h.append (by split <;> simp) fun d hd => ?_
  simp only [List.mem_ite_nil_right, List.mem_singleton] at hd
  rw [hd.2, hc]

theorem dueNow_nodup (s : State) : (dueNow s).Nodup := by
  have hrest : OnceBelow 1 (restDue s).toList := by
    refine ⟨?_, fun c hc => ?_⟩
    · cases restDue s <;> simp
    · rcases (restDue_iff s c).1 (Option.mem_toList.1 hc) with ⟨rfl, -⟩ | ⟨rfl, -⟩ <;> exact Nat.zero_lt_one
  have hchannels := hrest.append_rows (f := channelDue s)
    (fun i j c hi hj => by
      rcases (channelDue_iff s i c).1 hi with ⟨rfl, -⟩ | ⟨rfl, -⟩ <;>
        rcases (channelDue_iff s j _).1 hj with ⟨e, -⟩ | ⟨e, -⟩ <;> cases e <;> rfl)
    (fun i c hi => by rcases (channelDue_iff s i c).1 hi with ⟨rfl, -⟩ | ⟨rfl, -⟩ <;> rfl)
  have hreplies := hchannels.append_rows (f := replyDue s)
    (fun i j c hi hj => by
      obtain ⟨rfl, -⟩ := (replyDue_iff s i c).1 hi
      exact Instr.replyTimerExpiry.inj ((replyDue_iff s j _).1 hj).1)
    (fun i c hi => by rw [((replyDue_iff s i c).1 hi).1]; rfl)
  have hages := hreplies.append_rows (f := ageDue s)
    (fun i j c hi hj => by
      obtain ⟨rfl, -⟩ := (ageDue_iff s i c).1 hi
      exact Instr.ageCounterExpiry.inj ((ageDue_iff s j _).1 hj).1)
    (fun i c hi => by rw [((ageDue_iff s i c).1 hi).1]; rfl)
  have hsilence := hages.append_rows (f := silenceDue s)
    (fun i j c hi hj => by
      obtain ⟨rfl, -⟩ := (silenceDue_iff s i c).1 hi
      exact Instr.silenceCounterExpiry.inj ((silenceDue_iff s j _).1 hj).1)
    (fun i c hi => by rw [((silenceDue_iff s i c).1 hi).1]; rfl)
  exact ((hsilence.append_if rfl).append_if rfl).1

theorem dueNow_head {s : State} {c : Instr} (h : restDue s = some c) : (dueNow s).head? = some c := by
  unfold dueNow
  rw [h]
  rfl

/-! ### One bit time -/

theorem mem_transmitterBit (s : State) (c : Instr) :
    c ∈ (transmitterBit s).2 ↔
      (c = .completion ∧ ∃ n f, s.transmitter = .sending n ∧ s.buffer = some f ∧
        2 + 10 * (6 + f.frame.body.bytes.length) ≤ n + 1) ∨
      (c = .frameFoundBroken .jam ∧ s.transmitter = .jamming 10 ∧ s.receiver = .receiving) ∨
      (c = .abort ∧ ∃ n, s.transmitter = .jamming n ∧ 16 ≤ n) := by
  unfold transmitterBit
  cases ht : s.transmitter with
  | idle => simp
  | sending n =>
    cases hf : s.buffer with
    | none => simp
    | some f =>
      by_cases hn : n + 1 < f.frame.duration
      · have hn' : n + 1 < 2 + 10 * (6 + f.frame.body.bytes.length) := hn
        simp [hn, hn']
      · have hn' : ¬ n + 1 < 2 + 10 * (6 + f.frame.body.bytes.length) := hn
        simp [hn, Nat.not_lt.1 hn']
  | jamming n =>
    by_cases hn : n < 16
    · have hjam : (if n = Config.longestDominant ∧ s.receiver = .receiving then [Instr.frameFoundBroken .jam] else []) =
          if n = 10 ∧ s.receiver = .receiving then [Instr.frameFoundBroken .jam] else [] := rfl
      have hearly : ¬ 16 ≤ n := Nat.not_le.2 hn
      simp [hn, hjam, hearly, Config.jamBits, and_comm]
    · simp [hn, Config.jamBits, Nat.not_lt.1 hn]
      omega

theorem mem_listenBit (s : State) (c : Instr) :
    c ∈ (listenBit s).2 ↔
      c = .listenPeriodEnd ∧ s.receiver = .resting ∧ s.listen = some (11 + 8 * (s.record.ring + 1)) := by
  unfold listenBit
  cases hl : s.listen with
  | none => simp
  | some n =>
    have hend : n + 1 = s.record.listenPeriod ↔ n = 11 + 8 * (s.record.ring + 1) := by
      simp only [StationRecord.listenPeriod, Config.quietGap, Config.slotWidth]
      omega
    by_cases hr : s.receiver = .receiving
    · simp [hr]
    · simp [hr, hend, and_comm]

theorem mem_accessBit (s : State) (c : Instr) :
    c ∈ (accessBit s).2 ↔
      (c = .replyWindow ∧ s.windowOpen = true ∧ s.accessTimer = some 11) ∨
      (c = .rotationSlot ∧ s.accessTimer = some (11 + 8 * (rank s.record.own s.record.ring s.view + 1))) := by
  unfold accessBit
  cases ha : s.accessTimer with
  | none => simp
  | some n =>
    have hwindow : n + 1 = Config.quietGap ↔ n = 11 := by
      simp only [Config.quietGap]
      omega
    have hslot : n + 1 = s.slotCount ↔ n = 11 + 8 * (rank s.record.own s.record.ring s.view + 1) := by
      simp only [State.slotCount, Config.quietGap, Config.slotWidth]
      omega
    simp [hwindow, hslot, and_comm]

/-- The rows that a bit time brings. -/
theorem mem_bitTime (s : State) (c : Instr) :
    c ∈ (bitTime s).pending ↔ c ∈ (transmitterBit s).2 ∨ c ∈ (listenBit s).2 ∨ c ∈ (accessBit s).2 ∨
      (c = .tick ∧ 2000 ≤ (bitTime s).refclk) := by
  have htick : Config.refclkPerTick ≤ s.refclk + s.record.rate.periods ↔ 2000 ≤ (bitTime s).refclk := Iff.rfl
  rw [← htick]
  simp only [bitTime, List.mem_append, List.mem_ite_nil_right, List.mem_singleton, or_assoc,
    and_comm (a := c = Instr.tick)]

theorem accessBit_timer (s : State) :
    (accessBit s).1 = s.accessTimer.map fun n => if n + 1 = 12 + s.record.ring * 8 then 12 else n + 1 := by
  unfold accessBit
  cases s.accessTimer <;> rfl

theorem listenBit_count (s : State) :
    (s.receiver ≠ .receiving → (listenBit s).1 = s.listen.map fun n => n + 1) ∧
      (s.receiver = .receiving → (listenBit s).1 = s.listen) := by
  unfold listenBit
  cases s.listen with
  | none => exact ⟨fun _ => rfl, fun _ => rfl⟩
  | some n => exact ⟨fun h => congrArg Prod.fst (if_neg h), fun h => congrArg Prod.fst (if_pos h)⟩

theorem receiverBit_rest (s : State) :
    (∀ cause n, s.receiver = .recovering cause n →
      receiverBit s =
        .recovering (if cause = .rejoined then .joining else cause) (if s.transmitter = .idle then n + 1 else n)) ∧
      ((∀ cause n, s.receiver ≠ .recovering cause n) → receiverBit s = s.receiver) := by
  unfold receiverBit
  refine ⟨fun cause n h => ?_, fun h => ?_⟩
  · rw [h, ← RecoveryCause.later_eq]
  · split
    · next cause n hr => exact absurd hr (h cause n)
    · rfl

theorem transmitterBit_next (s : State) :
    (∀ n f, s.transmitter = .sending n → s.buffer = some f →
      (transmitterBit s).1 = .sending (if n + 1 < 2 + 10 * (6 + f.frame.body.bytes.length) then n + 1 else n)) ∧
      (∀ n, s.transmitter = .jamming n → (transmitterBit s).1 = .jamming (if n < 16 then n + 1 else n)) ∧
      (s.transmitter = .idle → (transmitterBit s).1 = .idle) := by
  unfold transmitterBit
  refine ⟨fun n f ht hf => ?_, fun n ht => ?_, fun ht => ?_⟩
  · rw [ht, hf]
    change Prod.fst (ite (n + 1 < f.frame.duration) _ _) = Transmitter.sending (if n + 1 < f.frame.duration then n + 1 else n)
    split <;> rfl
  · rw [ht]
    change Prod.fst (ite (n < Config.jamBits) _ _) = Transmitter.jamming (if n < Config.jamBits then n + 1 else n)
    split <;> rfl
  · rw [ht]

theorem bitTime_passes (s : State) : PassesBitTime s (bitTime s) := by
  obtain ⟨hheard, hstands⟩ := listenBit_count s
  obtain ⟨hrest, hother⟩ := receiverBit_rest s
  obtain ⟨hsending, hjamming, hidle⟩ := transmitterBit_next s
  have hrate : s.record.rate.periods = match s.record.rate with | .mbit1 => 20 | .mbit2_5 => 8 | .mbit5 => 4 | .mbit10 => 2 := by
    cases s.record.rate <;> rfl
  refine ⟨congrArg (s.refclk + ·) hrate, accessBit_timer s, hheard, hstands, hrest, hother, hsending, hjamming, hidle,
    ?_, ?_, ?_, ?_, ?_, ?_, ?_, fun c hc => ?_⟩
  case refine_8 =>
    simp only [mem_bitTime, mem_transmitterBit, mem_listenBit, mem_accessBit] at hc
    rcases hc with (⟨rfl, -⟩ | ⟨rfl, -⟩ | ⟨rfl, -⟩) | ⟨rfl, -⟩ | (⟨rfl, -⟩ | ⟨rfl, -⟩) | ⟨rfl, -⟩ <;> simp
  all_goals simp [mem_bitTime, mem_transmitterBit, mem_listenBit, mem_accessBit]

/-! ### The steps -/

/-- Settles O1: the front command is executed; the clock queues what is due, or passes a bit time. -/
theorem stepRunsFrontCommand : Obligations.StepRunsFrontCommand := by
  refine ⟨fun c rest s h => ?_, fun s h => ⟨idle s, ?_, fun hheld => ?_, ?_, fun hheld => ⟨fun hown => ?_, fun hown hdue => ?_,
    fun hnothing => ?_⟩⟩⟩
  · unfold step
    rw [h]
  · unfold step
    rw [h]
  · unfold idle
    rw [if_pos hheld]
  · unfold idle bitTime
    repeat' split
    all_goals rfl
  · rcases idle_cases s hheld with ⟨-, hidle⟩ | ⟨hnot, -⟩ | ⟨hnothing, -⟩
    · exact hidle
    · exact absurd ((ownStart_iff s).2 hown) (by simp [hnot])
    · exact absurd hown hnothing.1
  · have hidle : idle s = { s with pending := dueNow s } := by
      rcases idle_cases s hheld with ⟨hstart, -⟩ | ⟨-, -, hidle⟩ | ⟨hnothing, -⟩
      · exact absurd ((ownStart_iff s).1 hstart) hown
      · exact hidle
      · obtain ⟨c, hc⟩ := hdue
        exact absurd hc (hnothing.2 c)
    rw [hidle]
    exact ⟨rfl, dueNow_nodup s, mem_dueNow s, fun hrest => dueNow_head ((restDue_iff s _).2 (.inl ⟨rfl, hrest⟩)),
      fun hrest => dueNow_head ((restDue_iff s _).2 (.inr ⟨rfl, hrest⟩))⟩
  · rcases idle_cases s hheld with ⟨hstart, -⟩ | ⟨-, hdue, -⟩ | ⟨-, hidle⟩
    · exact absurd ((ownStart_iff s).1 hstart) hnothing.1
    · exact absurd ((nothingDue_iff s).1 hnothing).1 hdue
    · rw [hidle]
      exact bitTime_passes s

end Sys2Proof.Machine
end

section
/-! PROOF. The event flags: what moves and events of the station's life set them, and what else those change. From this the flags
of Table 10.5. -/

namespace Sys2Proof.Machine

/-! ### A flag set, kept and cleared (R183, R184) -/

theorem Event.bit_eq_iff (e e' : Event) : e.bit = e'.bit ↔ e' = e := by
  cases e <;> cases e' <;> decide

theorem getLsbD_or_byte (flags : Byte) (e e' : Event) :
    (flags ||| e.byte).getLsbD e'.bit = (flags.getLsbD e'.bit || decide (e' = e)) := by
  simp [Event.byte, e.bit_lt, Event.bit_eq_iff]

theorem setFlag_flag (e e' : Event) (s : State) : (setFlag e s).flag e' = (s.flag e' || decide (e' = e)) :=
  getLsbD_or_byte s.flags e e'

theorem flag_of_setFlag {e e' : Event} {s : State} (h : (setFlag e s).flag e' = true) : s.flag e' = true ∨ e' = e := by
  rw [setFlag_flag] at h
  simpa using h

theorem setFlag_flag_of {e e' : Event} {s : State} (h : s.flag e' = true) : (setFlag e s).flag e' = true := by
  rw [setFlag_flag, h, Bool.true_or]

/-- Two states with the same flags byte have the same flags. -/
theorem flag_congr {s t : State} (h : t.flags = s.flags) (e : Event) : t.flag e = s.flag e :=
  congrArg (BitVec.getLsbD · e.bit) h

/-- A flag that a move sets is one of its effects; the full notify queue sets NOTIFY_LOST. -/
theorem Move.flag_new {E : Effect → Prop} {s t : State} (h : Move E s t) (hr : ¬ E .reset) {e : Event}
    (ht : t.flag e = true) : s.flag e = true ∨ E (.flag e) ∨ (e = .notifyLost ∧ E .notify) := by
  cases h with
  | flagSet e' he =>
    rcases flag_of_setFlag ht with h | rfl
    · exact .inl h
    · exact .inr (.inl he)
  | flagsCleared named he =>
    rw [clearFlags_flag, Bool.and_eq_true] at ht
    exact .inl ht.1
  | notifyFull hn he =>
    rcases flag_of_setFlag ht with h | rfl
    · exact .inl h
    · exact .inr (.inr ⟨rfl, he⟩)
  | requestEnded _ _ _ _ _ _ _ _ he =>
    rcases flag_of_setFlag ht with h | rfl
    · exact .inl h
    · exact .inr (.inl he)
  | requestsEnded _ _ _ _ _ _ _ _ _ _ _ he =>
    unfold State.flag at ht
    dsimp only at ht
    split at ht
    · rcases flag_of_setFlag ht with h | rfl
      · exact .inl h
      · exact .inr (.inl he)
    · exact .inl ht
  | hardwareReset he => exact absurd he hr
  | _ => exact .inl ((flag_congr (by simp [enterSetup, enterJoining]) e).symm.trans ht)

/-- A set flag stays set in a move that neither clears flags nor resets. -/
theorem Move.flag_kept {E : Effect → Prop} {s t : State} (h : Move E s t) (hc : ¬ E .clear) (hr : ¬ E .reset) {e : Event}
    (hs : s.flag e = true) : t.flag e = true := by
  cases h with
  | flagSet | notifyFull | requestEnded => exact setFlag_flag_of hs
  | flagsCleared _ he => exact absurd he hc
  | requestsEnded =>
    unfold State.flag
    dsimp only
    split
    · exact setFlag_flag_of hs
    · exact hs
  | softReset _ he => exact absurd he hc
  | hardwareReset he => exact absurd he hr
  | _ => exact (flag_congr (by simp [enterSetup, enterJoining]) e).trans hs

/-- What no move of a chain ends holds at its end if it held at its beginning. -/
theorem Moves.keeps {E : Effect → Prop} {P : State → Prop} (hP : ∀ a b, Move E a b → P a → P b) {s t : State}
    (h : Moves E s t) (hs : P s) : P t := by
  induction h with
  | refl => exact hs
  | tail _ hmove ih => exact hP _ _ hmove ih

theorem Moves.flag_kept {E : Effect → Prop} {s t : State} (h : Moves E s t) (hc : ¬ E .clear) (hr : ¬ E .reset) {e : Event}
    (hs : s.flag e = true) : t.flag e = true :=
  h.keeps (P := fun a => a.flag e = true) (fun _ _ hm => hm.flag_kept hc hr) hs

/-- A chain without the effect of a flag sets it nowhere. -/
theorem Moves.flag_old {E : Effect → Prop} {s t : State} (h : Moves E s t) (hr : ¬ E .reset) {e : Event}
    (he : ¬ E (.flag e)) (hn : e = .notifyLost → ¬ E .notify) (ht : t.flag e = true) : s.flag e = true := by
  induction h with
  | refl => exact ht
  | tail _ hmove ih => exact ih ((hmove.flag_new hr ht).resolve_right fun h => h.elim he fun h => hn h.1 h.2)

theorem Quiet.flag_iff {s t : State} (h : Quiet s t) (e : Event) : t.flag e = true ↔ s.flag e = true :=
  ⟨Moves.flag_old h id id fun _ => id, Moves.flag_kept h id id⟩

theorem rowEffects_clear {c : Instr} (hs : c ≠ .softReset) (hc : ∀ named, c ≠ .clearEvents named) : .clear ∉ rowEffects c := by
  cases c with
  | softReset => exact absurd rfl hs
  | clearEvents named => exact absurd rfl (hc named)
  | _ => exact of_decide_eq_false rfl

theorem rowEffects_reset {c : Instr} (hr : c ≠ .hardwareReset) : .reset ∉ rowEffects c := by
  cases c with
  | hardwareReset => exact absurd rfl hr
  | _ => exact of_decide_eq_false rfl

theorem exec_clearEvents_flag {named : Byte} {s t : State} (h : exec (.clearEvents named) s = .next t) (e : Event) :
    t.flag e = s.flag e ∨ (named.getLsbD e.bit = true ∧ t.flag e = false) := by
  cases hheld : s.resetHeld with
  | true =>
    obtain rfl := Host.Outcome.next.inj ((exec_of_held (c := .clearEvents named) hheld nofun nofun).symm.trans h)
    exact .inl rfl
  | false =>
    obtain rfl := effect_of_taken hheld h
    have hflag : (clearEventsEffect named s).flag e = (s.flag e && !named.getLsbD e.bit) := clearFlags_flag named s e
    rw [hflag]
    cases named.getLsbD e.bit <;> simp

/-- A set flag stays set but for CLEAR_EVENTS naming it and the resets (R184). -/
theorem exec_flag_kept {c : Instr} {s t : State} (h : exec c s = .next t) {e : Event} (hs : s.flag e = true)
    (ht : t.flag e = false) :
    c = .hardwareReset ∨ c = .softReset ∨ ∃ named, c = .clearEvents named ∧ named.getLsbD e.bit = true := by
  by_contra hnot
  simp only [not_or, not_exists, not_and] at hnot
  obtain ⟨hr, hsoft, hclear⟩ := hnot
  by_cases hc : ∃ named, c = .clearEvents named
  · obtain ⟨named, rfl⟩ := hc
    rcases exec_clearEvents_flag h e with heq | ⟨hnamed, -⟩
    · simp [heq, hs] at ht
    · exact hclear named rfl hnamed
  · have hkept := (exec_moves h (E := (· ∈ rowEffects c)) fun _ he => he).flag_kept
      (rowEffects_clear hsoft fun named e => hc ⟨named, e⟩) (rowEffects_reset hr) hs
    simp [hkept] at ht

/-- The resets clear every flag (R162, R163). -/
theorem exec_reset_flag {c : Instr} {s t : State} (h : exec c s = .next t)
    (hc : c = .hardwareReset ∨ (c = .softReset ∧ s.resetHeld = false)) (e : Event) : t.flag e = false := by
  have hzero : t.flags = 0 := by
    rcases hc with rfl | ⟨rfl, hheld⟩
    · obtain rfl := Host.Outcome.next.inj h
      rfl
    · obtain rfl := effect_of_taken hheld h
      rfl
  simp [State.flag, hzero]

/-! ### The flags of the station's life (R150) -/

/-- Ending requests sets no flag but REQUEST_DONE. -/
theorem flag_of_endAll {why : LocalReason} {s : State} {e : Event}
    (h : (endRequests (fun _ => true) why (dropPending s)).flag e = true) : s.flag e = true ∨ e = .requestDone := by
  unfold State.flag at h
  rw [endRequests_flags, show (dropPending s).flags = s.flags by simp [dropPending]] at h
  split at h
  · rw [getLsbD_or_byte] at h
    simpa [State.flag] using h
  · exact .inl h

theorem enterMuted_flags (why : MutedReason) (s : State) :
    (enterMuted why s).flags = (endRequests (fun _ => true) .muted (dropPending s)).flags ||| Event.muted.byte := by
  unfold enterMuted
  generalize endRequests (fun _ => true) .muted (dropPending s) = u
  simp only [discardFrame_eq, clearMarks, clearPublishQueue, idleChannels]
  rfl

theorem enterLeaving_flags (s : State) :
    (enterLeaving s).flags = (endRequests (fun _ => true) .cancelled (dropPending s)).flags := by
  unfold enterLeaving
  generalize endRequests (fun _ => true) .cancelled (dropPending s) = u
  simp only [clearMarks, clearPublishQueue, idleChannels]

theorem flag_of_enterMuted {why : MutedReason} {s : State} {e : Event} (h : (enterMuted why s).flag e = true) :
    s.flag e = true ∨ e = .requestDone ∨ e = .muted := by
  unfold State.flag at h
  rw [enterMuted_flags, getLsbD_or_byte, Bool.or_eq_true, decide_eq_true_iff] at h
  rcases h with h | h
  · rcases flag_of_endAll h with h | h
    · exact .inl h
    · exact .inr (.inl h)
  · exact .inr (.inr h)

theorem enterMuted_flag_muted (why : MutedReason) (s : State) : (enterMuted why s).flag .muted = true := by
  unfold State.flag
  rw [enterMuted_flags, getLsbD_or_byte, decide_eq_true rfl, Bool.or_true]

theorem flag_of_enterLeaving {s : State} {e : Event} (h : (enterLeaving s).flag e = true) :
    s.flag e = true ∨ e = .requestDone :=
  flag_of_endAll ((flag_congr (enterLeaving_flags s) e).symm.trans h)

theorem enterActive_flag (e : Event) (s : State) : (enterActive s).flag e = (setFlag .joined s).flag e := by
  refine flag_congr ?_ e
  rw [enterActive_eq, claimRefreshes_only, opened_eq]
  rfl

/-- The event that a flag newly set by an event of the station's life tells. -/
theorem LifeEvent.flag_new {c : Instr} {s u v : State} (h : LifeEvent c s u v) (hu : u.station = s.station) {e : Event}
    (hv : v.flag e = true) :
    u.flag e = true ∨ e = .requestDone ∨ (e = .joined ∧ s.station = .joining ∧ v.station = .active) ∨
      (e = .muted ∧ v.station = .muted ∧ (s.station ≠ .muted ∨ TwinFound c s)) ∨
      (e = .left ∧ (s.station = .leaving ∨ (s.station = .muted ∧ c = .leave)) ∧ v.station = .setup) ∨
      (e = .configError ∧ v.configError ≠ .none ∧ v.station = .setup ∧ (c = .join ∨ s.station = .joining)) := by
  cases h with
  | refused err hc hs he =>
    rcases flag_of_setFlag hv with h | rfl
    · exact .inl h
    · exact .inr (.inr (.inr (.inr (.inr ⟨rfl, he, hu.trans hs, .inl hc⟩))))
  | joining | rejoining => exact .inl ((flag_congr (by simp [enterJoining]) e).symm.trans hv)
  | activated f hc hs hf ho =>
    rw [enterActive_flag] at hv
    rcases flag_of_setFlag hv with h | rfl
    · exact .inl h
    · exact .inr (.inr (.inl ⟨rfl, hs, enterActive_station u⟩))
  | leaving hc hs =>
    rcases flag_of_enterLeaving hv with h | h
    · exact .inl h
    · exact .inr (.inl h)
  | left h =>
    have hfrom : s.station = .leaving ∨ (s.station = .muted ∧ c = .leave) := by
      rcases h with h | ⟨h, -⟩ | ⟨h, -⟩
      · exact .inr h
      · exact .inl h
      · exact .inl h
    rcases flag_of_setFlag hv with h | rfl
    · exact .inl h
    · exact .inr (.inr (.inr (.inr (.inl ⟨rfl, hfrom, rfl⟩))))
  | mismatched x j ring silence owned hc hring hs =>
    rcases flag_of_setFlag hv with h | rfl
    · exact .inl h
    · exact .inr (.inr (.inr (.inr (.inr ⟨rfl, nofun, rfl, .inr hs⟩))))
  | aborted hc hn hs =>
    have hne : s.station ≠ .muted := by rcases hs with h | h <;> simp [h]
    rcases flag_of_enterMuted hv with h | h | rfl
    · exact .inl h
    · exact .inr (.inl h)
    · exact .inr (.inr (.inr (.inl ⟨rfl, rfl, .inl hne⟩)))
  | muted htwin hs =>
    rcases flag_of_enterMuted hv with h | h | rfl
    · exact .inl h
    · exact .inr (.inl h)
    · exact .inr (.inr (.inr (.inl ⟨rfl, rfl, .inr htwin⟩)))
  | renewed htwin hs =>
    rcases flag_of_setFlag hv with h | rfl
    · exact .inl h
    · exact .inr (.inr (.inr (.inl ⟨rfl, hu.trans hs, .inr htwin⟩)))

/-- The flags that the transitions of the station's life leave set. -/
theorem LifeEvent.flag_raised {c : Instr} {s u v : State} (h : LifeEvent c s u v) (hu : u.station = s.station) :
    (s.station ≠ .active → v.station = .active → v.flag .joined = true) ∧
    (s.station ≠ .muted → v.station = .muted → v.flag .muted = true) ∧
    (s.station = .leaving ∨ s.station = .muted → v.station = .setup → v.flag .left = true) ∧
    (s.station = .joining → v.station = .setup → v.flag .configError = true) := by
  cases h with
  | refused err hc hs he => simp [hu, hs]
  | joining | rejoining => simp [enterJoining_station]
  | activated => simp [enterActive_station, enterActive_flag, setFlag_flag_same]
  | leaving => simp [enterLeaving_station]
  | left h =>
    have hne : s.station ≠ .joining := by rcases h with ⟨h, -⟩ | ⟨h, -⟩ | ⟨h, -⟩ <;> simp [h]
    exact ⟨nofun, nofun, fun _ _ => setFlag_flag_same .., fun h => absurd h hne⟩
  | mismatched x j ring silence owned hc hring hs =>
    exact ⟨nofun, nofun, fun h => by simp [hs] at h, fun _ _ => setFlag_flag_same ..⟩
  | aborted | muted => exact ⟨nofun, fun _ _ => enterMuted_flag_muted .., nofun, nofun⟩
  | renewed htwin hs => simp [hu, hs]

theorem ordinaryEffects_flag {c : Instr} {e : Event} (he : e = .joined ∨ e = .muted ∨ e = .left ∨ e = .configError) :
    .flag e ∉ ordinaryEffects c := by
  refine not_mem_ordinaryEffects ?_
  rcases he with rfl | rfl | rfl | rfl <;> decide

/-- A chain without an event of the station's life sets none of the flags of that life. -/
theorem RowMoves.flag_old {c : Instr} {s t : State} (h : RowMoves c s t) {e : Event} (he : .flag e ∉ ordinaryEffects c)
    (hn : e ≠ .notifyLost) (ht : t.flag e = true) : s.flag e = true :=
  Moves.flag_old (h (fun e => e ∈ ordinaryEffects c ∨ e = .words ∨ e = .notify) (fun _ he => .inl he) fun _ => by simp)
    (by simp [ordinaryEffects_life c]) (by simpa using he) (fun h => absurd h hn) ht

/-- What a flag of the station's life tells when a row sets it. -/
theorem RowOutcome.flag_new {c : Instr} {s t : State} (h : RowOutcome c s t) {e : Event}
    (he : e = .joined ∨ e = .muted ∨ e = .left ∨ e = .configError) (hs : s.flag e = false) (ht : t.flag e = true) :
    (e = .joined ∧ s.station = .joining ∧ t.station = .active) ∨
      (e = .muted ∧ t.station = .muted ∧ (s.station ≠ .muted ∨ TwinFound c s)) ∨
      (e = .left ∧ (s.station = .leaving ∨ (s.station = .muted ∧ c = .leave)) ∧ t.station = .setup) ∨
      (e = .configError ∧ t.configError ≠ .none ∧ t.station = .setup ∧ (c = .join ∨ s.station = .joining)) := by
  rcases h with ⟨u, v, hu, hevent, hv⟩ | hmoves
  · rw [hv] at ht ⊢
    have hold : u.flag e ≠ true := fun h => by simp [(hu.flag_iff e).1 h] at hs
    refine ((hevent.flag_new hu.station_eq ht).resolve_left hold).resolve_left ?_
    rintro rfl
    simp at he
  · have hne : e ≠ .notifyLost := by rintro rfl; simp at he
    simp [hmoves.flag_old (ordinaryEffects_flag he) hne ht] at hs

/-- The transitions of the station's life leave their flags set. -/
theorem RowOutcome.flag_raised {c : Instr} {s t : State} (h : RowOutcome c s t) :
    (s.station ≠ .active → t.station = .active → t.flag .joined = true) ∧
    (s.station ≠ .muted → t.station = .muted → t.flag .muted = true) ∧
    (s.station = .leaving ∨ s.station = .muted → t.station = .setup → t.flag .left = true) ∧
    (s.station = .joining → t.station = .setup → t.flag .configError = true) := by
  rcases h with ⟨u, v, hu, hevent, hv⟩ | hmoves
  · rw [hv]
    exact hevent.flag_raised hu.station_eq
  · rw [hmoves.station_eq]
    exact ⟨fun h h' => absurd h' h, fun h h' => absurd h' h, fun h h' => by simp [h'] at h, fun h h' => by simp [h'] at h⟩

/-- A duplicate station found in MUTED renews MUTED (R126). -/
theorem flag_muted_of_twin {c : Instr} {s t : State} (h : exec c s = .next t) (hheld : s.resetHeld = false)
    (hs : s.station = .muted) (htwin : s.findsTwin = true)
    (hc : c = .duplicateStationFrame ∨ frameSender c = some (byteOf s.record.own.val)) : t.flag .muted = true := by
  obtain rfl := Host.Outcome.next.inj ((exec_of_twin hheld htwin hc).symm.trans h)
  rw [duplicateFound_of_muted (s := goodEnd _ _ s) hs]
  exact setFlag_flag_same ..

/-- A JOIN that leaves the station in SETUP has been refused, with CONFIG_ERROR (R153). -/
theorem flag_configError_of_join {s t : State} (h : exec .join s = .next t) (hheld : s.resetHeld = false)
    (hs : s.station = .setup) (ht : t.station = .setup) : t.flag .configError = true := by
  obtain rfl := effect_of_taken hheld h
  cases he : joinError s with
  | none =>
    simp only [joinEffect, hs, he] at ht
    exact nomatch ht
  | some err =>
    simp only [joinEffect, hs, he]
    exact setFlag_flag_same .configError { s with configError := err }

end Sys2Proof.Machine
end

section
/-! PROOF. The flags DISPUTE and PEER_CHANGE: what a row does to the DISPUTED flags of the pages and to the peer records, and that
the two flags tell it. -/

namespace Sys2Proof.Machine

/-! ### DISPUTE (R9, R169) -/

/-- DISPUTE tells a page that has become DISPUTED, and every such page is told. -/
structure DisputeTold (s t : State) : Prop where
  tells : s.flag .dispute = false → t.flag .dispute = true → ∃ p, s.disputed p = false ∧ t.disputed p = true
  told : ∀ p, s.disputed p = false → t.disputed p = true → t.flag .dispute = true

theorem DisputeTold.of_old {s t : State} (hf : t.flag .dispute = true → s.flag .dispute = true)
    (hd : ∀ p, t.disputed p = true → s.disputed p = true) : DisputeTold s t :=
  ⟨fun hs ht => by simp [hf ht] at hs, fun p hs ht => by simp [hd p ht] at hs⟩

/-- No page becomes DISPUTED in a move without the effect of DISPUTE. -/
theorem Move.disputed_old {E : Effect → Prop} {s t : State} (h : Move E s t) (hd : ¬ E (.flag .dispute)) (hr : ¬ E .reset)
    (p : PageNo) (ht : t.disputed p = true) : s.disputed p = true := by
  cases h with
  | setPage q v | spanWidened q _ _ v | mirrorChanged q _ _ v | refreshClaimed _ q _ v | refreshEnded _ _ _ v
  | published q _ _ _ _ v => exact (setVariant_disputed _ p _ s).symm.trans ht
  | ticked _ _ _ _ hp => exact (congrArg Page.disputed (hp p)).symm.trans ht
  | requestsEnded _ _ _ _ _ _ _ _ _ _ _ _ hed => exact hed.elim (absurd · hd) fun hed => hed p ht
  | toSetup | softReset => exact nomatch (enterSetup_disputed s p).symm.trans ht
  | toJoining cause => exact (enterJoining_disputed cause s p).symm.trans ht
  | hardwareReset he => exact absurd he hr
  | _ => simpa [State.disputed] using ht

theorem Moves.disputed_old {E : Effect → Prop} {s t : State} (h : Moves E s t) (hd : ¬ E (.flag .dispute)) (hr : ¬ E .reset)
    (p : PageNo) (ht : t.disputed p = true) : s.disputed p = true := by
  induction h with
  | refl => exact ht
  | tail _ hmove ih => exact ih (hmove.disputed_old hd hr p ht)

theorem endAll_disputed (why : LocalReason) (s : State) (p : PageNo) :
    (endRequests (fun _ => true) why (dropPending s)).disputed p = s.disputed p :=
  endRequests_mapVariants_disputed ..

theorem enterMuted_disputed (why : MutedReason) (s : State) (p : PageNo) : (enterMuted why s).disputed p = s.disputed p := by
  have hend := endAll_disputed .muted s p
  unfold enterMuted
  generalize endRequests (fun _ => true) .muted (dropPending s) = u at hend
  simp only [discardFrame_eq, clearMarks, clearPublishQueue, idleChannels]
  exact hend

theorem enterLeaving_disputed (s : State) (p : PageNo) : (enterLeaving s).disputed p = s.disputed p := by
  have hend := endAll_disputed .cancelled s p
  unfold enterLeaving
  generalize endRequests (fun _ => true) .cancelled (dropPending s) = u at hend
  simp only [clearMarks, clearPublishQueue, idleChannels]
  exact hend

theorem LifeEvent.disputed_old {c : Instr} {s u v : State} (h : LifeEvent c s u v) (hu : u.station = s.station) (p : PageNo)
    (hv : v.disputed p = true) : u.disputed p = true := by
  cases h with
  | refused | renewed => exact hv
  | joining | rejoining => exact (enterJoining_disputed _ u p).symm.trans hv
  | activated f hc hs =>
    exact Moves.disputed_old (enterActive_moves (E := fun e => e = .lifecycle ∨ e = .flag .joined) (.inl rfl) (.inr rfl)
      (hu.trans hs)) (by simp) (by simp) p hv
  | leaving => exact (enterLeaving_disputed u p).symm.trans hv
  | left | mismatched => exact nomatch (enterSetup_disputed u p).symm.trans hv
  | aborted | muted => exact (enterMuted_disputed _ u p).symm.trans hv

theorem LifeEvent.dispute_told {c : Instr} {s u v : State} (hu : Quiet s u) (h : LifeEvent c s u v) : DisputeTold s v :=
  .of_old
    (fun hv => (hu.flag_iff _).1 (by simpa using h.flag_new hu.station_eq hv))
    fun p hv => Moves.disputed_old hu id id p (h.disputed_old hu.station_eq p hv)

theorem RowOutcome.dispute_told {c : Instr} {s t : State} (h : RowOutcome c s t) (hd : .flag .dispute ∉ ordinaryEffects c) :
    DisputeTold s t := by
  rcases h with ⟨u, v, hu, hevent, hv⟩ | hmoves
  · rw [hv]
    obtain ⟨htells, htold⟩ := hevent.dispute_told hu
    exact ⟨htells, htold⟩
  · refine .of_old (hmoves.flag_old hd nofun) fun p =>
      Moves.disputed_old (hmoves (fun e => e ∈ ordinaryEffects c ∨ e = .words ∨ e = .notify) (fun _ he => .inl he)
        fun _ => by simp) (by simpa using hd) (by simp [ordinaryEffects_life c]) p

theorem heard_flags (x : Station) (window : Bool) (s : State) :
    (heard x window s).flags = if s.isPresent x then s.flags else s.flags ||| Event.peerChange.byte := by
  have hsame : (goodEnd (some x) window s).isPresent x = s.isPresent x := rfl
  unfold heard renewPresence
  rw [hsame]
  dsimp only
  split <;> rfl

theorem heard_flag (x : Station) (window : Bool) (s : State) (e : Event) :
    (heard x window s).flag e = (s.flag e || (decide (e = .peerChange) && !s.isPresent x)) := by
  unfold State.flag
  rw [heard_flags]
  cases s.isPresent x
  · rw [if_neg nofun, getLsbD_or_byte, Bool.not_false, Bool.and_true]
  · rw [if_pos rfl, Bool.not_true, Bool.and_false, Bool.or_false]

theorem announced_dispute_told (x : Station) (j : Bool) (silence : Byte) (owned : PageSet) (s : State) :
    DisputeTold s (announced x j silence owned (heard x false s)) := by
  obtain ⟨w, u, rfl, hchecked, htaken⟩ := announced_takes x j silence owned (heard x false s)
  generalize announced x j silence owned (heard x false s) = t at htaken
  have hstart : ∀ p, (recordOwned x owned silence (heard x false s)).disputed p = s.disputed p := heard_disputed x false s
  have hflag : (recordOwned x owned silence (heard x false s)).flag .dispute = s.flag .dispute :=
    (heard_flag x false s .dispute).trans (by simp)
  generalize hw : recordOwned x owned silence (heard x false s) = w at hchecked hstart hflag
  have hdisputed : ∀ p, t.disputed p = (s.disputed p || newlyDisputed x owned w p) := fun p => by
    rw [htaken.disputed, hchecked.disputed, hstart]
  have hnew : ∀ p, newlyDisputed x owned w p = true → s.disputed p = false := fun p hp => by
    rw [newlyDisputed, Bool.and_eq_true, hstart] at hp
    simpa using hp.2
  have hflags : t.flags = if ∃ p, newlyDisputed x owned w p = true then w.flags ||| Event.dispute.byte else w.flags :=
    htaken.flags.trans hchecked.flags
  by_cases hex : ∃ p, newlyDisputed x owned w p = true
  · rw [if_pos hex] at hflags
    obtain ⟨p, hp⟩ := hex
    refine ⟨fun _ _ => ⟨p, hnew p hp, by rw [hdisputed, hp, Bool.or_true]⟩, fun _ _ _ => ?_⟩
    unfold State.flag
    rw [hflags, getLsbD_or_byte, decide_eq_true rfl, Bool.or_true]
  · rw [if_neg hex] at hflags
    refine .of_old (fun ht => ?_) fun p ht => ?_
    · rwa [flag_congr hflags, hflag] at ht
    · rw [hdisputed, Bool.or_eq_true] at ht
      exact ht.resolve_right fun hp => hex ⟨p, hp⟩

theorem exec_announce_dispute_told {x : Station} {j : Bool} {ring silence : Byte} {owned : PageSet} {s t : State}
    (hheld : s.resetHeld = false) (h : exec (.announceFrame x j ring silence owned) s = .next t) : DisputeTold s t := by
  have hsame : DisputeTold s s := .of_old id fun _ => id
  by_cases hx : x = s.record.own
  · cases htwin : s.findsTwin with
    | true =>
      obtain ⟨u, hu, hevent⟩ := twin_event (c := .duplicateStationFrame) htwin (.inl rfl)
      obtain rfl := Host.Outcome.next.inj ((exec_of_twin hheld htwin (.inr (by rw [hx]; rfl))).symm.trans h)
      exact hevent.dispute_told hu
    | false =>
      obtain rfl := effect_of_taken hheld h
      rw [frameFrom, if_pos hx, htwin]
      exact hsame
  obtain rfl := effect_of_taken hheld h
  cases hs : s.hears with
  | false =>
    rw [frameFrom, if_neg hx, hs]
    exact hsame
  | true =>
    rw [frameFrom_of_hears hx hs]
    by_cases hring : ring.toNat = s.record.ring
    · rw [takeAnnounce_of_ring (s := goodEnd (some x) false s) hring]
      exact announced_dispute_told x j silence owned s
    by_cases hst : s.station = .joining
    · rw [takeAnnounce_of_mismatch (s := goodEnd (some x) false s) hring hst]
      exact LifeEvent.dispute_told (goodEnd_moves (by rw [hst]; nofun) _ _)
        (.mismatched (c := .announceFrame x j ring silence owned) x j ring silence owned rfl hring hst)
    · rw [takeAnnounce_of_other (s := goodEnd (some x) false s) hring hst]
      refine .of_old (fun ht => ?_) fun p ht => (heard_disputed x false s p).symm.trans ht
      have ht : (heard x false s).flag .dispute = true := ht
      simpa [heard_flag] using ht

theorem ordinaryEffects_dispute {c : Instr} (hc : ∀ x j ring silence owned, c ≠ .announceFrame x j ring silence owned) :
    .flag .dispute ∉ ordinaryEffects c := by
  cases c with
  | announceFrame x j ring silence owned => exact absurd rfl (hc x j ring silence owned)
  | _ => exact of_decide_eq_false rfl

theorem exec_dispute_told {c : Instr} {s t : State} (h : exec c s = .next t) (hr : c ≠ .hardwareReset) (hs : c ≠ .softReset) :
    DisputeTold s t := by
  by_cases hc : ∃ x j ring silence owned, c = .announceFrame x j ring silence owned
  · obtain ⟨x, j, ring, silence, owned, rfl⟩ := hc
    cases hheld : s.resetHeld with
    | true =>
      obtain rfl := Host.Outcome.next.inj ((exec_of_held hheld hr nofun).symm.trans h)
      exact .of_old id fun _ => id
    | false => exact exec_announce_dispute_told hheld h
  · exact (exec_outcome h hr hs).dispute_told (ordinaryEffects_dispute fun x j ring silence owned e =>
      hc ⟨x, j, ring, silence, owned, e⟩)

end Sys2Proof.Machine
end

section
/-! PROOF. The flag PEER_CHANGE: what a row does to the peer records, and that the flag tells it. -/

namespace Sys2Proof.Machine

/-! ### Peer records that keep their state (R164) -/

/-- Two peer states that differ at most in the silence counter. -/
def PeerState.Alike (a b : PeerState) : Prop :=
  ((∃ k, b = .present k) ↔ ∃ k, a = .present k) ∧ (b = .silent ↔ a = .silent) ∧ (b = .absent ↔ a = .absent)

theorem PeerState.Alike.refl (a : PeerState) : a.Alike a := ⟨Iff.rfl, Iff.rfl, Iff.rfl⟩

theorem PeerState.alike_of_present (k k' : Counter) : (PeerState.present k).Alike (.present k') := by
  simp [PeerState.Alike]

/-- Every peer record is in the same state in both, whatever its silence counter. -/
def SamePeers (s t : State) : Prop := ∀ x : Station, s.peers[x].state.Alike t.peers[x].state

theorem SamePeers.of_state {s t : State} (h : ∀ x : Station, t.peers[x].state = s.peers[x].state) : SamePeers s t := fun x => by
  rw [h x]
  exact .refl _

theorem SamePeers.of_eq {s t : State} (h : t.peers = s.peers) : SamePeers s t := .of_state fun x => by rw [h]

theorem SamePeers.trans {s t u : State} (h : SamePeers s t) (h' : SamePeers t u) : SamePeers s u := fun x =>
  ⟨(h' x).1.trans (h x).1, (h' x).2.1.trans (h x).2.1, (h' x).2.2.trans (h x).2.2⟩

theorem samePeers_of_tick {s t : State} (h : ∀ x : Station, t.peers[x] = s.peers[x].tick) : SamePeers s t := fun x => by
  rw [h x, PeerRecord.tick]
  split
  · next k hk =>
    rw [hk]
    exact PeerState.alike_of_present ..
  · exact .refl _

theorem Move.samePeers {E : Effect → Prop} {s t : State} (h : Move E s t) (hp : ¬ E .peers) (hl : ¬ E .lifecycle)
    (hr : ¬ E .reset) : SamePeers s t := by
  cases h with
  | ticked _ _ _ _ _ _ _ hx => exact samePeers_of_tick hx
  | peerRecorded x r _ he =>
    refine .of_state fun y => ?_
    rw [setPeer_getElem]
    split
    · next h => rw [h]; exact he.resolve_left hp
    · rfl
  | toMuted _ _ he | toLeaving _ _ he | toSetup _ he | softReset he | toJoining _ _ he | toActive _ he => exact absurd he hl
  | hardwareReset he => exact absurd he hr
  | _ => exact .of_eq rfl

theorem Moves.samePeers {E : Effect → Prop} {s t : State} (h : Moves E s t) (hp : ¬ E .peers) (hl : ¬ E .lifecycle)
    (hr : ¬ E .reset) : SamePeers s t := by
  induction h with
  | refl => exact .of_eq rfl
  | tail _ hmove ih => exact ih.trans (hmove.samePeers hp hl hr)

/-! ### PEER_CHANGE (R165, R166, R167) -/

/-- PEER_CHANGE tells a record that has become PRESENT, SILENT or ABSENT, and every such record is told, but for those that an
entry to another station state has cleared. -/
structure PeerTold (s t : State) : Prop where
  tells : s.flag .peerChange = false → t.flag .peerChange = true → ∃ x : Station,
    (¬ Present s x ∧ Present t x) ∨ (Present s x ∧ t.peers[x].state = .silent) ∨
      (s.peers[x].state ≠ .absent ∧ t.peers[x].state = .absent)
  gained : ∀ x : Station, (¬ Present s x ∧ Present t x) ∨ (Present s x ∧ t.peers[x].state = .silent) →
    t.flag .peerChange = true
  lost : ∀ x : Station, s.peers[x].state ≠ .absent → t.peers[x].state = .absent → t.station = s.station →
    t.flag .peerChange = true

theorem not_present_of_silent {s : State} {x : Station} (h : s.peers[x].state = .silent) : ¬ Present s x := by
  rintro ⟨k, hk⟩
  cases h.symm.trans hk

theorem not_present_of_absent {s : State} {x : Station} (h : s.peers[x].state = .absent) : ¬ Present s x := by
  rintro ⟨k, hk⟩
  cases h.symm.trans hk

theorem PeerTold.of_same {s t : State} (hf : t.flag .peerChange = true → s.flag .peerChange = true) (hp : SamePeers s t) :
    PeerTold s t := by
  refine ⟨fun hs ht => by simp [hf ht] at hs, fun x hx => ?_, fun x hx hx' _ => absurd ((hp x).2.2.1 hx') hx⟩
  rcases hx with ⟨hx, hx'⟩ | ⟨hx, hx'⟩
  · exact absurd ((hp x).1.1 hx') hx
  · exact absurd hx (not_present_of_silent ((hp x).2.1.1 hx'))

/-- An entry to another station state that clears the peer table sets no PEER_CHANGE. -/
theorem PeerTold.of_cleared {s t : State} (hf : t.flag .peerChange = true → s.flag .peerChange = true)
    (hp : ∀ x : Station, t.peers[x].state = .absent) (hst : t.station ≠ s.station) : PeerTold s t := by
  refine ⟨fun hs ht => by simp [hf ht] at hs, fun x hx => ?_, fun x _ _ h => absurd h hst⟩
  rcases hx with ⟨-, hx⟩ | ⟨-, hx⟩
  · exact absurd hx (not_present_of_absent (hp x))
  · cases (hp x).symm.trans hx

/-- A record that changes with PEER_CHANGE set. -/
theorem PeerTold.of_set {s t : State} {x : Station} (hf : t.flag .peerChange = true)
    (hx : (¬ Present s x ∧ Present t x) ∨ (Present s x ∧ t.peers[x].state = .silent) ∨
      (s.peers[x].state ≠ .absent ∧ t.peers[x].state = .absent)) : PeerTold s t :=
  ⟨fun _ _ => ⟨x, hx⟩, fun _ _ => hf, fun _ _ _ _ => hf⟩

/-- What follows without a change of the peer table is not told. -/
theorem PeerTold.trans_same {s t u : State} (h : PeerTold s t) (hf : u.flag .peerChange = true ↔ t.flag .peerChange = true)
    (hp : SamePeers t u) (hst : u.station = t.station) : PeerTold s u := by
  refine ⟨fun hs hu => ?_, fun x hx => ?_, fun x hx hx' hsame => ?_⟩
  · obtain ⟨x, hx⟩ := h.tells hs (hf.1 hu)
    refine ⟨x, ?_⟩
    rwa [Present, Present, (hp x).1, (hp x).2.1, (hp x).2.2]
  · rw [Present, Present, (hp x).1, (hp x).2.1] at hx
    exact hf.2 (h.gained x hx)
  · exact hf.2 (h.lost x hx ((hp x).2.2.1 hx') (hst.symm.trans hsame))

theorem endAll_peers (why : LocalReason) (s : State) : (endRequests (fun _ => true) why (dropPending s)).peers = s.peers := by
  rw [endRequests_eq]
  simp [dropPending]

theorem enterMuted_peers (why : MutedReason) (s : State) : (enterMuted why s).peers = s.peers := by
  have hend := endAll_peers .muted s
  unfold enterMuted
  generalize endRequests (fun _ => true) .muted (dropPending s) = u at hend
  simp only [discardFrame_eq, clearMarks, clearPublishQueue, idleChannels]
  exact hend

theorem enterLeaving_peers (s : State) : (enterLeaving s).peers = s.peers := by
  have hend := endAll_peers .cancelled s
  unfold enterLeaving
  generalize endRequests (fun _ => true) .cancelled (dropPending s) = u at hend
  simp only [clearMarks, clearPublishQueue, idleChannels]
  exact hend

/-- An event of the station's life leaves the states of the peer records, or clears them all and changes the station state. -/
theorem LifeEvent.peers {c : Instr} {s u v : State} (h : LifeEvent c s u v) :
    v.peers = u.peers ∨ ((∀ x : Station, v.peers[x].state = .absent) ∧ v.station ≠ s.station) := by
  cases h with
  | refused | renewed => exact .inl rfl
  | joining hc hs | rejoining hc hs =>
    refine .inr ⟨fun x => by simp [enterJoining, PeerRecord.start], ?_⟩
    rw [enterJoining_station, hs]
    nofun
  | activated =>
    refine .inl ?_
    rw [enterActive_eq, claimRefreshes_only, opened_eq]
  | leaving => exact .inl (enterLeaving_peers u)
  | left h =>
    refine .inr ⟨fun x => by simp [enterSetup, PeerRecord.start], fun hst => ?_⟩
    have hst : s.station = .setup := hst.symm
    rcases h with ⟨h, -⟩ | ⟨h, -⟩ | ⟨h, -⟩ <;> cases hst.symm.trans h
  | mismatched x j ring silence owned hc hring hs =>
    refine .inr ⟨fun x => by simp [enterSetup, PeerRecord.start], fun hst => ?_⟩
    have hst : s.station = .setup := hst.symm
    cases hst.symm.trans hs
  | aborted | muted => exact .inl (enterMuted_peers _ u)

theorem LifeEvent.peer_told {c : Instr} {s u v : State} (hu : Quiet s u) (h : LifeEvent c s u v) : PeerTold s v := by
  have hflag : v.flag .peerChange = true → s.flag .peerChange = true := fun hv =>
    (hu.flag_iff _).1 (by simpa using h.flag_new hu.station_eq hv)
  rcases h.peers with hp | ⟨hp, hst⟩
  · exact .of_same hflag ((Moves.samePeers hu id id id).trans (.of_eq hp))
  · exact .of_cleared hflag hp hst

theorem RowOutcome.peer_told {c : Instr} {s t : State} (h : RowOutcome c s t) (hp : .peers ∉ ordinaryEffects c)
    (hf : .flag .peerChange ∉ ordinaryEffects c) : PeerTold s t := by
  rcases h with ⟨u, v, hu, hevent, hv⟩ | hmoves
  · rw [hv]
    obtain ⟨htells, hgained, hlost⟩ := hevent.peer_told hu
    exact ⟨htells, hgained, hlost⟩
  · exact .of_same (hmoves.flag_old hf nofun)
      (Moves.samePeers (hmoves (fun e => e ∈ ordinaryEffects c ∨ e = .words ∨ e = .notify) (fun _ he => .inl he)
        fun _ => by simp) (by simpa using hp) (by simp [ordinaryEffects_life c]) (by simp [ordinaryEffects_life c]))

theorem ownerLost_flag {x : Station} {s : State} : (ownerLost x s).flag .peerChange = true ↔ s.flag .peerChange = true :=
  have hmoves := ownerLost_moves (E := fun e => e = .flag .requestDone) rfl x s
  ⟨hmoves.flag_old nofun nofun nofun, hmoves.flag_kept nofun nofun⟩

theorem ownerLost_peers (x : Station) (s : State) : (ownerLost x s).peers = s.peers := by rw [ownerLost_only]

/-- A record replaced with PEER_CHANGE set, and the owner-lost actions. -/
theorem peer_told_of_lost {s : State} {x : Station} {r : PeerRecord}
    (h : (Present s x ∧ r.state = .silent) ∨ (s.peers[x].state ≠ .absent ∧ r.state = .absent)) :
    PeerTold s (ownerLost x (setFlag .peerChange (setPeer x r s))) := by
  refine .of_set (x := x) (ownerLost_flag.2 (setFlag_flag_same ..)) (.inr ?_)
  have hx : (setPeer x r s).peers[x] = r := by rw [setPeer_getElem, if_pos rfl]
  rw [ownerLost_peers, setFlag_peers, hx]
  exact h

theorem silenceExpiry_peer_told (x : Station) (s : State) : PeerTold s (silenceExpiryEffect x s) := by
  cases hx : s.peers[x].state with
  | present k =>
    rw [silenceExpiryEffect_of_present hx]
    split
    · exact peer_told_of_lost (.inl ⟨⟨k, hx⟩, rfl⟩)
    · exact .of_same id (.of_eq rfl)
  | absent | silent =>
    rw [silenceExpiryEffect, hx]
    exact .of_same id (.of_eq rfl)

theorem takeLeave_peer_told (x : Station) (s : State) : PeerTold s (takeLeave x s) := by
  unfold takeLeave
  split
  · next hx =>
    refine .of_same id (.of_state fun y => ?_)
    rw [setPeer_getElem]
    split
    · next h => rw [h, hx]; rfl
    · rfl
  · next hx => exact peer_told_of_lost (.inr ⟨hx, rfl⟩)

theorem heard_peers (x y : Station) (window : Bool) (s : State) :
    (heard x window s).peers[y] = if y = x then { s.peers[x] with state := .present s.silenceLoad } else s.peers[y] :=
  renewPresence_peers x y _

theorem heard_peer_told (x : Station) (window : Bool) (s : State) : PeerTold s (heard x window s) := by
  have hx : Present (heard x window s) x := ⟨s.silenceLoad, by rw [heard_peers, if_pos rfl]⟩
  by_cases hpresent : Present s x
  · have hflag : (heard x window s).flag .peerChange = s.flag .peerChange := by
      rw [heard_flag, (isPresent_iff s x).2 hpresent, Bool.not_true, Bool.and_false, Bool.or_false]
    refine .of_same (fun h => hflag.symm.trans h) fun y => ?_
    by_cases hy : y = x
    · subst hy
      obtain ⟨k, hk⟩ := hpresent
      obtain ⟨k', hk'⟩ := hx
      rw [hk, hk']
      exact PeerState.alike_of_present ..
    · rw [heard_peers, if_neg hy]
      exact .refl _
  · refine .of_set (x := x) ?_ (.inl ⟨hpresent, hx⟩)
    rw [heard_flag, Bool.eq_false_iff.2 fun h => hpresent ((isPresent_iff s x).1 h)]
    simp

/-- The effects that a frame row can have beside the good end of its frame and the words it applies. -/
theorem takenEffects_among (c : Instr) : ∀ e ∈ takenEffects c, e ∈ [.flag .requestDone, .flag .dispute] := by
  cases c <;> exact of_decide_eq_true rfl

theorem not_mem_takenEffects {c : Instr} {e : Effect} (he : e ∉ [.flag .requestDone, .flag .dispute]) : e ∉ takenEffects c :=
  fun h => he (takenEffects_among c e h)

theorem takenEffects_plain (c : Instr) : .peers ∉ takenEffects c ∧ .flag .peerChange ∉ takenEffects c ∧
    .lifecycle ∉ takenEffects c ∧ .reset ∉ takenEffects c ∧ .clear ∉ takenEffects c :=
  ⟨not_mem_takenEffects (by decide), not_mem_takenEffects (by decide), not_mem_takenEffects (by decide),
    not_mem_takenEffects (by decide), not_mem_takenEffects (by decide)⟩

theorem FrameOutcome.peer_told {c : Instr} {s t : State} (h : FrameOutcome c s t) : PeerTold s t := by
  cases h with
  | unheard => exact .of_same id (.of_eq rfl)
  | twin hc ht =>
    obtain ⟨u, hu, hevent⟩ := twin_event ht hc
    exact hevent.peer_told hu
  | unnamed hs => exact .of_same id (.of_eq rfl)
  | left x hc hx hs =>
    obtain ⟨htells, hgained, hlost⟩ := takeLeave_peer_told x (goodEnd (some x) false s)
    exact ⟨htells, hgained, hlost⟩
  | mismatched x j ring silence owned hc hs hring hst =>
    exact LifeEvent.peer_told (goodEnd_moves (by rw [hst]; nofun) _ _) (.mismatched x j ring silence owned hc hring hst)
  | taken x window t hc hx hs h =>
    have hmoves := h (fun e => e ∈ takenEffects c ∨ e = .words ∨ e = .notify) (fun _ he => .inl he) fun _ => by simp
    obtain ⟨hp, hf, hl, hr, hclear⟩ := takenEffects_plain c
    refine (heard_peer_told x window s).trans_same
      ⟨hmoves.flag_old (by simpa using hr) (by simpa using hf) nofun, hmoves.flag_kept (by simpa using hclear) (by simpa using hr)⟩
      (hmoves.samePeers (by simpa using hp) (by simpa using hl) (by simpa using hr)) ?_
    exact Moves.field_eq (F := State.station) (fun _ _ hm => hm.station_eq (by simpa using hl) (by simpa using hr)) hmoves

theorem ordinaryEffects_peers {c : Instr} (hframe : frameSender c = none) (hc : ∀ x, c ≠ .silenceCounterExpiry x) :
    .peers ∉ ordinaryEffects c ∧ .flag .peerChange ∉ ordinaryEffects c := by
  cases c with
  | silenceCounterExpiry x => exact absurd rfl (hc x)
  | updateFrame | fetchFrame | writeFrame | replyFrame | ackFrame | announceFrame | presenceFrame | leaveFrame
  | malformedFrame | otherTargetFrame => exact nomatch hframe
  | _ => exact ⟨of_decide_eq_false rfl, of_decide_eq_false rfl⟩

theorem exec_peer_told {c : Instr} {s t : State} (h : exec c s = .next t) (hr : c ≠ .hardwareReset) (hs : c ≠ .softReset) :
    PeerTold s t := by
  by_cases hheld : s.resetHeld = true ∧ c ≠ .resetRelease
  · obtain rfl := Host.Outcome.next.inj ((exec_of_held hheld.1 hr hheld.2).symm.trans h)
    exact .of_same id (.of_eq rfl)
  cases hframe : frameSender c with
  | some b =>
    have hrunning : s.resetHeld = false := by
      cases hb : s.resetHeld with
      | false => rfl
      | true => exact absurd ⟨hb, by rintro rfl; cases hframe⟩ hheld
    exact (exec_frameOutcome hrunning (.inr ⟨b, hframe⟩) h).peer_told
  | none =>
    by_cases hc : ∃ x, c = .silenceCounterExpiry x
    · obtain ⟨x, rfl⟩ := hc
      obtain rfl := effect_of_taken (by simpa using hheld) h
      exact silenceExpiry_peer_told x s
    · obtain ⟨hp, hf⟩ := ordinaryEffects_peers hframe fun x e => hc ⟨x, e⟩
      exact (exec_outcome h hr hs).peer_told hp hf

end Sys2Proof.Machine
end

section
/-! PROOF. The flags REQUEST_DONE and NOTIFY_LOST: the requests that a row ends and the notifications that it loses. With these the
flags of Table 10.5 are settled. -/

namespace Sys2Proof.Machine

/-! ### What a move does to a request entry (R72) -/

/-- An entry that holds a QUEUED or SENT READ or WRITE. -/
def HostOpen (e : Option Request) : Prop := ∃ r, e = some r ∧ r.isOpen = true ∧ r.isRefresh = false

/-- An entry that is DONE or FAILED. -/
def Ended (e : Option Request) : Prop := ∃ r, e = some r ∧ r.isOpen = false

theorem hostOpen_some {r : Request} : HostOpen (some r) ↔ r.isOpen = true ∧ r.isRefresh = false := by
  simp [HostOpen]

theorem ended_some {r : Request} : Ended (some r) ↔ r.isOpen = false := by
  simp [Ended]

theorem not_hostOpen_none : ¬ HostOpen none := by
  rintro ⟨_, h, -⟩
  cases h

theorem not_ended_none : ¬ Ended none := by
  rintro ⟨_, h, -⟩
  cases h

theorem Ended.not_hostOpen {e : Option Request} (h : Ended e) : ¬ HostOpen e := by
  obtain ⟨r, rfl, hr⟩ := h
  simp [hostOpen_some, hr]

theorem not_hostOpen_of_refresh {r : Request} (hr : r.isRefresh = true) : ¬ HostOpen (some r) := by
  simp [hostOpen_some, hr]

theorem not_ended_of_open {r : Request} (hr : r.isOpen = true) : ¬ Ended (some r) := by
  simp [ended_some, hr]

/-- What a move with the effects `E` makes of a request entry; `told` says that REQUEST_DONE is set after it. -/
inductive EntryMove (E : Effect → Prop) (told : Prop) : Option Request → Option Request → Prop
  /-- The entry stays. -/
  | kept (e) : EntryMove E told e e
  /-- The request goes on. -/
  | alike (r r' : Request) (ho : r'.isOpen = r.isOpen) (hr : r'.isRefresh = r.isRefresh) : EntryMove E told (some r) (some r')
  /-- The request's frame is started. -/
  | framed (r r' : Request) (ho : r'.isOpen = true) (hr : r'.isRefresh = r.isRefresh) (he : E .start) :
    EntryMove E told (some r) (some r')
  /-- A READ or WRITE ends. -/
  | ended (r r' : Request) (hr : r.isRefresh = false) (ho : r.isOpen = true) (hc : r'.isOpen = false) (ht : told) :
    EntryMove E told (some r) (some r')
  /-- A REFRESH begins or ends. -/
  | refreshed (e e' : Option Request) (h : ¬ HostOpen e) (h' : ¬ HostOpen e') (hn : ¬ Ended e) : EntryMove E told e e'
  /-- A host claims or frees the entry. -/
  | host (e e' : Option Request) (h : ¬ HostOpen e) (he : E .host) : EntryMove E told e e'
  /-- A reset. -/
  | cleared (e e' : Option Request) (he : E .clear ∨ E .reset) : EntryMove E told e e'

section Entry

variable {E : Effect → Prop} {told : Prop} {e e' : Option Request}

theorem EntryMove.hostOpen_old (h : EntryMove E told e e') (hh : ¬ E .host) (hs : ¬ E .start) (hc : ¬ E .clear)
    (hr : ¬ E .reset) (he : HostOpen e') : HostOpen e := by
  cases h with
  | kept => exact he
  | alike r r' ho hk =>
    rwa [hostOpen_some, ho, hk, ← hostOpen_some] at he
  | framed _ _ _ _ hstart => exact absurd hstart hs
  | ended r r' _ _ hclosed => exact absurd he (Ended.not_hostOpen ⟨r', rfl, hclosed⟩)
  | refreshed _ _ _ h' => exact absurd he h'
  | host _ _ _ hhost => exact absurd hhost hh
  | cleared _ _ hclear => exact (not_or.2 ⟨hc, hr⟩ hclear).elim

theorem EntryMove.ended_kept (h : EntryMove E told e e') (hh : ¬ E .host) (hs : ¬ E .start) (hc : ¬ E .clear)
    (hr : ¬ E .reset) (he : Ended e) : Ended e' := by
  cases h with
  | kept => exact he
  | alike r r' ho hk =>
    rwa [ended_some, ← ho, ← ended_some] at he
  | framed _ _ _ _ hstart => exact absurd hstart hs
  | ended r r' _ _ hclosed => exact ⟨r', rfl, hclosed⟩
  | refreshed _ _ _ _ hn => exact absurd he hn
  | host _ _ _ hhost => exact absurd hhost hh
  | cleared _ _ hclear => exact (not_or.2 ⟨hc, hr⟩ hclear).elim

/-- A READ or WRITE that is open stays open until REQUEST_DONE tells its end. -/
theorem EntryMove.hostOpen_kept (h : EntryMove E told e e') (hc : ¬ E .clear) (hr : ¬ E .reset) (he : HostOpen e) :
    HostOpen e' ∨ told := by
  cases h with
  | kept => exact .inl he
  | alike r r' ho hk | framed r r' ho hk =>
    rw [hostOpen_some] at he
    exact .inl (hostOpen_some.2 (by simp [ho, hk, he]))
  | ended _ _ _ _ _ ht => exact .inr ht
  | refreshed _ _ h => exact absurd he h
  | host _ _ h => exact absurd he h
  | cleared _ _ hclear => exact (not_or.2 ⟨hc, hr⟩ hclear).elim

end Entry

theorem EntryMove.set {E : Effect → Prop} {told : Prop} {s : State} {t : Tag} {e : Option Request}
    (h : EntryMove E told s.table[t] e) (u : Tag) : EntryMove E told s.table[u] (setEntry t e s).table[u] := by
  rw [setEntry_getElem]
  split
  · next hu => rw [hu]; exact h
  · exact .kept _

theorem Request.isOpen_of_sent {r : Request} {k : Counter} (h : r.phase = .sent k) : r.isOpen = true := by
  simp [Request.isOpen, h]

theorem tick_isRefresh (r : Request) : r.tick.isRefresh = r.isRefresh := by
  unfold Request.tick
  split <;> rfl

theorem endEntry_move {E : Effect → Prop} {told : Prop} {sel : Request → Bool} {why : LocalReason} (e : Option Request)
    (ht : (∃ r, e = some r ∧ r.isOpen = true ∧ sel r = true ∧ r.isRefresh = false) → told) :
    EntryMove E told e (endEntry sel why e) := by
  cases e with
  | none => exact .kept _
  | some r =>
    simp only [endEntry]
    split
    · next hsel =>
      obtain ⟨ho, hs⟩ := Bool.and_eq_true_iff.1 hsel
      split
      · next hr => exact .refreshed _ _ (not_hostOpen_of_refresh hr) not_hostOpen_none (not_ended_of_open ho)
      · next hr =>
        have hr : r.isRefresh = false := by simpa using hr
        exact .ended _ _ hr ho rfl (ht ⟨r, rfl, ho, hs, hr⟩)
    · exact .kept _

theorem tableSent_move {E : Effect → Prop} {told : Prop} (o : Origin) (s : State) (u : Tag) :
    EntryMove E told s.table[u] (tableSent o s)[u] := by
  cases o with
  | request t =>
    unfold tableSent
    dsimp only
    rcases requestSent_cases t s with ⟨h, -⟩ | ⟨r, hr, hf, h⟩
    · rw [h]; exact .kept _
    · rw [h]
      refine EntryMove.set ?_ u
      rw [hr]
      exact .alike _ _ (Request.isOpen_of_isFramed hf).symm rfl
  | _ => exact .kept _

theorem hostHit_iff (s : State) (sel : Request → Bool) (u : Tag) :
    s.hostHit sel u = true ↔ ∃ r, s.table[u] = some r ∧ r.isOpen = true ∧ sel r = true ∧ r.isRefresh = false := by
  rw [hostHit_eq]
  cases s.table[u] <;> simp [and_assoc]

theorem Move.entry {E : Effect → Prop} {s t : State} (h : Move E s t) (u : Tag) :
    EntryMove E (t.flag .requestDone = true) s.table[u] t.table[u] := by
  cases h with
  | hostClaimed v kind x p o n hs hv hk he =>
    refine EntryMove.set (s := s) ?_ u
    rw [hv]
    exact .host _ _ not_hostOpen_none he
  | refreshClaimed v p d r hs hv =>
    refine EntryMove.set (s := s) ?_ u
    rw [hv]
    exact .refreshed _ _ not_hostOpen_none (not_hostOpen_of_refresh rfl) not_ended_none
  | collected v r hv ho hr he =>
    refine EntryMove.set ?_ u
    rw [hv]
    exact .host _ _ (Ended.not_hostOpen ⟨r, rfl, ho⟩) he
  | requestEnded v r k phase hv hp hr hc =>
    refine EntryMove.set (s := s) ?_ u
    rw [hv]
    exact .ended _ _ hr (Request.isOpen_of_sent hp) hc (setFlag_flag_same ..)
  | requestRetried v r k hv hp =>
    refine EntryMove.set (s := s) ?_ u
    rw [hv]
    exact .alike _ _ (Request.isOpen_of_sent hp).symm rfl
  | refreshEnded v r k w hv hp hr =>
    refine EntryMove.set (s := s) ?_ u
    rw [hv]
    exact .refreshed _ _ (not_hostOpen_of_refresh hr) not_hostOpen_none (not_ended_of_open (Request.isOpen_of_sent hp))
  | ticked pages channels table peers hp hc ht =>
    dsimp only
    rw [ht u]
    cases s.table[u] with
    | none => exact .kept _
    | some r => exact .alike _ _ r.tick_isOpen (tick_isRefresh r)
  | requestsEnded sel why =>
    simp only [Fin.getElem_fin, mapTable_getElem]
    refine endEntry_move _ fun hit => ?_
    unfold State.flag
    dsimp only
    rw [if_pos (List.any_eq_true.2 ⟨u, List.mem_finRange u, (hostHit_iff s sel u).2 hit⟩)]
    exact setFlag_flag_same .requestDone s
  | softReset _ he => exact .cleared _ _ (.inl he)
  | hardwareReset he => exact .cleared _ _ (.inr he)
  | frameSent f => exact tableSent_move f.origin s u
  | frameClaimed v rest r f hq hv hf ho hd he =>
    refine EntryMove.set (s := s) ?_ u
    rw [hv]
    exact .framed _ _ rfl rfl he
  | toSetup | toJoining =>
    simp only [enterSetup, enterJoining, mapVariants_table]
    exact .kept _
  | _ => exact .kept _

/-! ### REQUEST_DONE (R87) -/

/-- A move that sets REQUEST_DONE ends a READ or WRITE. -/
theorem Move.requestDone_new {E : Effect → Prop} {s t : State} (h : Move E s t) (hr : ¬ E .reset)
    (ht : t.flag .requestDone = true) :
    s.flag .requestDone = true ∨ ∃ u : Tag, HostOpen s.table[u] ∧ Ended t.table[u] := by
  cases h with
  | flagSet e he hne => exact .inl ((flag_of_setFlag ht).resolve_right fun h => hne h.symm)
  | flagsCleared named he =>
    rw [clearFlags_flag, Bool.and_eq_true] at ht
    exact .inl ht.1
  | notifyFull => exact .inl ((flag_of_setFlag ht).resolve_right nofun)
  | requestEnded v r k phase hv hp hk hc =>
    refine .inr ⟨v, ⟨r, hv, Request.isOpen_of_sent hp, hk⟩, { r with phase := phase }, ?_, hc⟩
    exact (setEntry_getElem v v _ s).trans (if_pos rfl)
  | requestsEnded sel why =>
    unfold State.flag at ht
    dsimp only at ht
    split at ht
    · next hany =>
      obtain ⟨u, -, hu⟩ := List.any_eq_true.1 hany
      obtain ⟨r, hr, ho, hs, hk⟩ := (hostHit_iff s sel u).1 hu
      refine .inr ⟨u, ⟨r, hr, ho, hk⟩, { r with phase := .failed why }, ?_, rfl⟩
      have hr : s.table[u.val] = some r := hr
      simp [hr, endEntry, ho, hs, hk]
    · exact .inl ht
  | hardwareReset he => exact absurd he hr
  | _ => exact .inl ((flag_congr (by simp [enterSetup, enterJoining]) _).symm.trans ht)

/-- In a chain without claims, frames started, and resets, the READs and WRITEs that are open were open before, and REQUEST_DONE
tells one that has ended. -/
theorem Moves.requestDone_tells {E : Effect → Prop} {s t : State} (h : Moves E s t) (hh : ¬ E .host) (hs : ¬ E .start)
    (hc : ¬ E .clear) (hr : ¬ E .reset) :
    (∀ u : Tag, HostOpen t.table[u] → HostOpen s.table[u]) ∧
      (t.flag .requestDone = true → s.flag .requestDone = true ∨ ∃ u : Tag, HostOpen s.table[u] ∧ Ended t.table[u]) := by
  induction h with
  | refl => exact ⟨fun _ => id, .inl⟩
  | tail _ hmove ih =>
    obtain ⟨hopen, htells⟩ := ih
    refine ⟨fun u hu => hopen u ((hmove.entry u).hostOpen_old hh hs hc hr hu), fun ht => ?_⟩
    rcases hmove.requestDone_new hr ht with hold | ⟨u, hu, hended⟩
    · exact (htells hold).imp_right fun ⟨u, hu, hended⟩ => ⟨u, hu, (hmove.entry u).ended_kept hh hs hc hr hended⟩
    · exact .inr ⟨u, hopen u hu, hended⟩

/-- In a chain that clears no flags, a READ or WRITE that is open stays open, or REQUEST_DONE is set. -/
theorem Moves.requestDone_told {E : Effect → Prop} {s t : State} (h : Moves E s t) (hc : ¬ E .clear) (hr : ¬ E .reset) {u : Tag}
    (hu : HostOpen s.table[u]) : HostOpen t.table[u] ∨ t.flag .requestDone = true := by
  refine h.keeps (P := fun a => HostOpen a.table[u] ∨ a.flag .requestDone = true) (fun a b hmove ha => ?_) (.inl hu)
  rcases ha with ha | ha
  · exact (hmove.entry u).hostOpen_kept hc hr ha
  · exact .inr (hmove.flag_kept hc hr ha)

theorem rowEffects_requestDone (c : Instr) : .flag .requestDone ∈ rowEffects c →
    .host ∉ rowEffects c ∧ .start ∉ rowEffects c ∧ .clear ∉ rowEffects c ∧ .reset ∉ rowEffects c := by
  cases c <;> exact of_decide_eq_true rfl

theorem exec_requestDone_tells {c : Instr} {s t : State} (h : exec c s = .next t) (hr : c ≠ .hardwareReset)
    (hs : s.flag .requestDone = false) (ht : t.flag .requestDone = true) :
    ∃ u : Tag, HostOpen s.table[u] ∧ Ended t.table[u] := by
  have hmoves := exec_moves h (E := (· ∈ rowEffects c)) fun _ he => he
  by_cases hdone : .flag .requestDone ∈ rowEffects c
  · obtain ⟨hhost, hstart, hclear, hreset⟩ := rowEffects_requestDone c hdone
    exact ((hmoves.requestDone_tells hhost hstart hclear hreset).2 ht).resolve_left (by simp [hs])
  · simp [hmoves.flag_old (rowEffects_reset hr) hdone nofun ht] at hs

theorem exec_requestDone_told {c : Instr} {s t : State} (h : exec c s = .next t) (hr : c ≠ .hardwareReset) (hs : c ≠ .softReset)
    {u : Tag} (hu : HostOpen s.table[u]) (ht : Ended t.table[u]) : t.flag .requestDone = true := by
  by_cases hc : ∃ named, c = .clearEvents named
  · obtain ⟨named, rfl⟩ := hc
    have htable : t.table = s.table := by
      cases hheld : s.resetHeld with
      | true =>
        obtain rfl := Host.Outcome.next.inj ((exec_of_held (c := .clearEvents named) hheld nofun nofun).symm.trans h)
        rfl
      | false =>
        obtain rfl := effect_of_taken hheld h
        rfl
    rw [htable] at ht
    exact absurd hu ht.not_hostOpen
  · have hmoves := exec_moves h (E := (· ∈ rowEffects c)) fun _ he => he
    exact (hmoves.requestDone_told (rowEffects_clear hs fun named e => hc ⟨named, e⟩) (rowEffects_reset hr) hu).resolve_left
      ht.not_hostOpen

/-! ### NOTIFY_LOST (R187) -/

/-- The notify-lost counter advances in a move that sets NOTIFY_LOST alone. -/
theorem Move.lost_told {E : Effect → Prop} {s t : State} (h : Move E s t) (hr : ¬ E .reset) :
    t.counters.notifyLost.toNat ≤ s.counters.notifyLost.toNat ∨ t.flag .notifyLost = true := by
  cases h with
  | counted counters h => exact .inl h
  | notifyFull => exact .inr (setFlag_flag_same ..)
  | hardwareReset he => exact absurd he hr
  | _ => exact .inl (by simp [enterSetup, enterJoining])

theorem exec_lost_told {c : Instr} {s t : State} (h : exec c s = .next t) (hr : c ≠ .hardwareReset) (hs : c ≠ .softReset)
    (hlost : s.counters.notifyLost.toNat < t.counters.notifyLost.toNat) : t.flag .notifyLost = true := by
  by_cases hc : ∃ named, c = .clearEvents named
  · obtain ⟨named, rfl⟩ := hc
    cases hheld : s.resetHeld with
    | true =>
      obtain rfl := Host.Outcome.next.inj ((exec_of_held (c := .clearEvents named) hheld nofun nofun).symm.trans h)
      exact absurd hlost (Nat.lt_irrefl _)
    | false =>
      obtain rfl := effect_of_taken hheld h
      exact absurd hlost (Nat.lt_irrefl _)
  · have hmoves := exec_moves h (E := (· ∈ rowEffects c)) fun _ he => he
    have hclear := rowEffects_clear hs fun named e => hc ⟨named, e⟩
    have htold := hmoves.keeps
      (P := fun a => a.counters.notifyLost.toNat ≤ s.counters.notifyLost.toNat ∨ a.flag .notifyLost = true)
      (fun a b hmove ha => ?_) (.inl (Nat.le_refl _))
    · exact htold.resolve_left (by omega)
    · rcases ha with ha | ha
      · exact (hmove.lost_told (rowEffects_reset hr)).imp_left fun h => h.trans ha
      · exact .inr (hmove.flag_kept hclear (rowEffects_reset hr) ha)

@[simp] theorem heard_notify (x : Station) (window : Bool) (s : State) : (heard x window s).notify = s.notify := by
  rw [heard_only]

/-- What a row that applies words does to the notify queue and to NOTIFY_LOST. -/
theorem exec_notified {c : Instr} {p : PageNo} {first : Nat} {ws : List Word} {watch : Bool} {s t : State}
    (h : AppliesWords c s p first ws watch) (hexec : exec c s = .next t) :
    t.notify = (notifyIf watch p s).notify ∧ t.flag .notifyLost = (notifyIf watch p s).flag .notifyLost := by
  obtain ⟨x, window, -, -, hnotify, hflags⟩ := exec_wordsApplied h hexec
  have hlost : (heard x window s).flag .notifyLost = s.flag .notifyLost := (heard_flag x window s _).trans (by simp)
  rw [hnotify, flag_congr hflags]
  cases watch with
  | false => exact ⟨heard_notify x window s, hlost⟩
  | true =>
    unfold notifyIf notifyAppend
    rw [if_pos rfl, if_pos rfl, heard_notify]
    split
    · exact ⟨heard_notify x window s, hlost⟩
    split
    · exact ⟨heard_notify x window s, (setFlag_flag_same ..).trans (setFlag_flag_same ..).symm⟩
    · exact ⟨rfl, hlost⟩

theorem RowOutcome.lost_old {c : Instr} {s t : State} (h : RowOutcome c s t) (hW : ¬ WritesWords c s)
    (ht : t.flag .notifyLost = true) : s.flag .notifyLost = true := by
  rcases h with ⟨u, v, hu, hevent, hv⟩ | hmoves
  · rw [hv] at ht
    exact (hu.flag_iff _).1 (by simpa using hevent.flag_new hu.station_eq ht)
  · have heffects : .flag .notifyLost ∉ ordinaryEffects c ∧ .notify ∉ ordinaryEffects c :=
      ⟨not_mem_ordinaryEffects (by decide), not_mem_ordinaryEffects (by decide)⟩
    exact Moves.flag_old (hmoves (· ∈ ordinaryEffects c) (fun _ he => he) fun h => absurd h hW) (ordinaryEffects_life c).2
      heffects.1 (fun _ => heffects.2) ht

/-- NOTIFY_LOST tells an append to the full notify queue, which leaves the queue. -/
theorem exec_lost_tells {c : Instr} {s t : State} (h : exec c s = .next t) (hr : c ≠ .hardwareReset) (hs : c ≠ .softReset)
    (hold : s.flag .notifyLost = false) (ht : t.flag .notifyLost = true) : 16 ≤ s.notify.length ∧ t.notify = s.notify := by
  by_cases hW : WritesWords c s
  · obtain ⟨p, first, ws, watch, happ⟩ := hW
    obtain ⟨hnotify, hflag⟩ := exec_notified happ h
    rw [hflag] at ht
    cases watch with
    | false => exact absurd ht (by simpa [notifyIf] using hold)
    | true =>
      rcases notifyAppend_cases p s with ⟨-, heq⟩ | ⟨-, hfull, heq⟩ | ⟨-, -, heq⟩
      · rw [notifyIf, if_pos rfl, heq, hold] at ht
        cases ht
      · refine ⟨hfull, hnotify.trans ?_⟩
        rw [notifyIf, if_pos rfl, heq]
        rfl
      · rw [notifyIf, if_pos rfl, heq] at ht
        exact absurd ht (by simpa [State.flag] using hold)
  · simp [(exec_outcome h hr hs).lost_old hW ht] at hold

/-- Words applied to a watched page leave it in the notify queue, or NOTIFY_LOST set if the queue is full of others. -/
theorem exec_watched {c : Instr} {p : PageNo} {s t : State} (happ : AppliesToWatched c s p) (h : exec c s = .next t) :
    (p ∉ s.notify → 16 ≤ s.notify.length → t.flag .notifyLost = true) ∧
      ((p ∈ s.notify ∨ s.notify.length < 16) → p ∈ t.notify) := by
  obtain ⟨first, ws, happ⟩ := happ
  obtain ⟨hnotify, hflag⟩ := exec_notified happ h
  rw [hflag, hnotify, notifyIf, if_pos rfl]
  have hsize : Config.notifyQueueSize = 16 := rfl
  rcases notifyAppend_cases p s with ⟨hp, heq⟩ | ⟨hp, hfull, heq⟩ | ⟨hp, hroom, heq⟩
  · rw [heq]
    exact ⟨fun h => absurd hp h, fun _ => hp⟩
  · rw [heq]
    exact ⟨fun _ _ => setFlag_flag_same .., fun h => h.elim (absurd · hp) fun h => by omega⟩
  · rw [heq]
    exact ⟨fun _ h => by omega, fun _ => by simp⟩

/-- Settles O25: the flags of the station's life by its events, DISPUTE, PEER_CHANGE and REQUEST_DONE by what the row does to the
pages, the peer records and the entries, and NOTIFY_LOST by the words it applies. -/
theorem flagsTellEvents : Obligations.FlagsTellEvents := by
  intro c s t h
  refine ⟨fun e => exec_flag_kept h, exec_reset_flag h, fun hr hs => ?_⟩
  have houtcome := exec_outcome h hr hs
  obtain ⟨hjoined, hmuted, hleft, hconfig⟩ := houtcome.flag_raised
  obtain ⟨hdispute, hdisputed⟩ := exec_dispute_told h hr hs
  obtain ⟨hpeer, hgained, hlost⟩ := exec_peer_told h hr hs
  refine ⟨fun hs ht => ?_, hjoined, fun hs ht => ?_, hmuted, fun hheld hst htwin hc => flag_muted_of_twin h hheld hst htwin hc,
    fun hs ht => ?_, hleft, fun hs ht => ?_, hconfig, ?_, hdispute, hdisputed, hpeer, hgained, hlost, fun hs ht => ?_,
    fun u r r' hr' ho hk ht hc => ?_, exec_lost_tells h hr hs, exec_lost_told h hr hs, fun p happ => exec_watched happ h⟩
  · have htold : s.station = .joining ∧ t.station = .active := by simpa using houtcome.flag_new (.inl rfl) hs ht
    exact ⟨by simp [htold.1], htold.2⟩
  · obtain ⟨hst, hfrom⟩ : t.station = .muted ∧ (s.station ≠ .muted ∨ TwinFound c s) := by
      simpa using houtcome.flag_new (.inr (.inl rfl)) hs ht
    exact ⟨hst, hfrom.imp_right fun h => h.2⟩
  · simpa using houtcome.flag_new (.inr (.inr (.inl rfl))) hs ht
  · simpa using houtcome.flag_new (.inr (.inr (.inr rfl))) hs ht
  · rintro rfl hheld hst ht
    exact flag_configError_of_join h hheld hst ht
  · obtain ⟨u, ⟨r, hu, ho, hk⟩, r', hu', hc⟩ := exec_requestDone_tells h hr hs ht
    exact ⟨u, r, r', hu, ho, hk, hu', hc⟩
  · exact exec_requestDone_told h hr hs (u := u) ⟨r, hr', ho, hk⟩ ⟨r', ht, hc⟩

end Sys2Proof.Machine
end
